-- ==== Sys2Proof/Word.lean ====
section
/-! DEFINITION. The word types of the engine: the byte of every port and store (R61), the 7-bit sequence register
(R25, R26, R37), byte sequences as frames and datagrams (R16). -/

namespace Sys2Proof

/-- A byte, bits 7 (weight 128) down to 0 (R16, R61). -/
abbrev Byte := BitVec 8

/-- The content of a sequence register or of a 7-bit sequence field, 0 to 127 (R25, R26, R37, R91). -/
abbrev Seq := BitVec 7

/-- A frame or datagram: its bytes in offset order, offset 0 first (R16, R62, R65). -/
abbrev Datagram := List Byte

end Sys2Proof
end

