-- ==== Sys2Proof/Config.lean ====
section
/-! DEFINITION. What is fixed for one session (role, mode, the sizes of R12), and the plain data that crosses the ports:
transactions, channel acts, the reasons a transaction is not an instruction. -/

namespace Sys2Proof

/-- `CFG.ROLE` (R9, R20). -/
inductive Role where
  | sender
  | receiver
deriving DecidableEq, Repr

/-- `CFG.MODE` (R10, R21): single-outstanding or windowed. -/
inductive Mode where
  | so
  | win
deriving DecidableEq, Repr

/-- `CHUNK`: the largest payload of a data frame and the size of a source read (R12). -/
abbrev Config.chunk : Nat := 124

/-- `MAX_DGRAM`: the largest datagram the RX port can present (R12, R101). -/
abbrev Config.maxDgram : Nat := 128

/-- The largest window, and so the largest `CFG.W` (R11, R22). -/
abbrev Config.maxWindow : Nat := 128

/-- What the channel does to the datagrams in flight towards this instance or towards its peer (R72).
Positions count from 0. -/
inductive Direction where
  | toPeer
  | fromPeer
deriving DecidableEq, Repr

/-- One choice of the channel (R72, U11). Reordering is the freedom to present any position. -/
inductive ChanAct where
  /-- A datagram appears in flight: the peer sent it, or (U11) nobody did. -/
  | appear (dir : Direction) (d : Datagram)
  /-- The datagram leaves the channel: it is lost, or, towards the peer, it is delivered there. -/
  | leave (dir : Direction) (i : Nat)
  /-- The byte at one offset of the datagram changes. -/
  | corrupt (dir : Direction) (i offset : Nat) (b : Byte)
  /-- Only the first `n` bytes of the datagram are kept. -/
  | shorten (dir : Direction) (i n : Nat)
  /-- A second copy of the datagram is in flight. -/
  | duplicate (dir : Direction) (i : Nat)
  /-- The datagram is presented at this instance's RX port, with the `drop` bit beside it (R14, R60). -/
  | present (i : Nat) (drop : Bool)
deriving DecidableEq, Repr

/-- What one step finds presented: a transaction at a port of the engine, or an act of the channel.
DESIGN CHOICE (notes/assumptions/1.md, 4.md): the OP byte of R103 comes first, its operands follow as bytes. -/
inductive Txn where
  /-- An event (kind E of R103). -/
  | event (bytes : List Byte)
  /-- A function or sub-operation (kinds F and S of R103) as its caller makes it. -/
  | call (bytes : List Byte)
  /-- A datagram at the RX port with its `drop` bit. -/
  | rx (d : Datagram) (drop : Bool)
  /-- The channel acts. -/
  | channel (a : ChanAct)
deriving DecidableEq, Repr

/-- Why the bytes of a transaction are no instruction. All of these are refusals in the sense of R104. -/
inductive DecodeError where
  /-- No OP byte at all. -/
  | noOpcode
  /-- An OP value that R103 gives no operation (R104). -/
  | reservedOp
  /-- A function or sub-operation presented as an event: never an event of its own (R103, R180). -/
  | notAnEvent
  /-- An event presented as a call (R103). -/
  | notACall
  /-- Too few or too many operand bytes. -/
  | operandCount
  /-- An operand outside its range (R121, R122, R140 to R142, R220). -/
  | operandRange
  /-- A datagram of more than 128 bytes cannot be presented (R101, U3). -/
  | tooLong
  /-- A datagram shorter than the 2-byte header is no frame (R99). -/
  | shortFrame
  /-- A channel act carries no instruction. -/
  | notAnInstruction
deriving DecidableEq, Repr

end Sys2Proof
end

