-- ==== Sys2Proof/Syntax.lean ====
section
/-! DEFINITION. The instructions: one constructor per row of spec/opcode_table.json, 18 operations (R103) and the two
frame formats (R91, R92). -/

namespace Sys2Proof

/-- The operations of R103 with their operands, and the frames of R91 and R92 with their fields. -/
inductive Instr where
  /-- RESET (OP 0x00, R220): the session parameters. -/
  | reset (role : Role) (mode : Mode) (w trto : Nat)
  /-- CLOSE (OP 0x01, R221). -/
  | close
  /-- CH.FAIL (OP 0x02, R222). -/
  | chFail
  /-- CKSUM (OP 0x10, R120). -/
  | cksum (d : Datagram)
  /-- ENC.W (OP 0x11, R121). -/
  | encW (seq : Seq) (payload : List Byte) (last : Bool)
  /-- ENC.S (OP 0x12, R122). -/
  | encS (seq : Seq) (payload : List Byte) (last : Bool)
  /-- DEC.W (OP 0x13, R123). -/
  | decW (d : Datagram)
  /-- DEC.S (OP 0x14, R124). -/
  | decS (d : Datagram)
  /-- SEQINC (OP 0x20, R140). -/
  | seqInc (x : Seq)
  /-- SEQOFF (OP 0x21, R141). -/
  | seqOff (base v : Seq)
  /-- INWIN (OP 0x22, R142). -/
  | inWin (base : Seq) (size : Nat) (v : Seq)
  /-- SND.SEND (OP 0x30, R151). -/
  | sndSend
  /-- SND.ACK (OP 0x31, R170). -/
  | sndAck (d : Datagram)
  /-- TMR.START (OP 0x40, R180). -/
  | tmrStart
  /-- TMR.CANCEL (OP 0x41, R181). -/
  | tmrCancel
  /-- TMR.TICK (OP 0x42, R182). -/
  | tmrTick
  /-- TMR.FIRE (OP 0x43, R183). -/
  | tmrFire
  /-- RCV.FRAME (OP 0x50, R200). -/
  | rcvFrame (d : Datagram) (drop : Bool)
  /-- FRAME.W (R91, R93, R94): a format-W frame at the RX port, field by field; `drop` comes beside it (R60). -/
  | frameW (eot : Bool) (seq : Seq) (cks : Byte) (payload : List Byte) (drop : Bool)
  /-- FRAME.S (R92, R93, R94): a format-S frame at the RX port; `reserved` is byte 0 bits 7:1. -/
  | frameS (reserved : BitVec 7) (seq : BitVec 1) (cks : Byte) (payload : List Byte) (drop : Bool)
deriving DecidableEq, Repr

end Sys2Proof
end

