-- ==== Sys2Proof/WellFormed.lean ====
section
/-! DEFINITION. Which instructions can be presented at all: the operand ranges the rules make part of an operation's type
(R101, R120 to R124, R142, R170, R200, R220). Ranges that depend on `CFG.MODE` are checked by the meanings. -/

namespace Sys2Proof

/-- The operands lie in the ranges of the instruction's rule. -/
def Instr.WellFormed : Instr → Bool
  | .reset _ _ w _ => w < 256
  | .cksum d => 2 ≤ d.length
  | .encW _ payload _ => payload.length ≤ Config.chunk
  | .encS seq payload _ => seq.toNat < 2 && payload.length ≤ Config.chunk
  | .decW d | .decS d | .sndAck d | .rcvFrame d _ => d.length ≤ Config.maxDgram
  | .inWin _ size _ => size ≤ Config.maxWindow
  | .frameW _ _ _ payload _ | .frameS _ _ _ payload _ => payload.length + 2 ≤ Config.maxDgram
  | .seqInc _ | .seqOff .. => true
  | .close | .chFail | .sndSend | .tmrStart | .tmrCancel | .tmrTick | .tmrFire => true

end Sys2Proof
end

