-- ==== Sys2Proof/Decode.lean ====
section
/-! DEFINITION. From the bytes of a transaction to an instruction, total and rejecting by name, and back.
The OP codes are those of R103; the two frame layouts those of R91 to R94. How operands follow an OP byte is this model's
(DESIGN CHOICE, notes/assumptions/1.md): single-byte operands in the order of the table, then the byte-sequence operand up
to the end of the transaction; `trto` is the natural number whose little-endian bytes end a RESET. -/

namespace Sys2Proof

/-! ## Kinds and frame headers -/

/-- Kind E of R103: triggered from outside the engine. A frame is neither an event nor a call. -/
def Instr.isEvent : Instr → Bool
  | .reset .. | .close | .chFail | .sndSend | .sndAck _ | .tmrTick | .tmrFire | .rcvFrame .. => true
  | .cksum _ | .encW .. | .encS .. | .decW _ | .decS _ | .seqInc _ | .seqOff .. | .inWin .. => false
  | .tmrStart | .tmrCancel | .frameW .. | .frameS .. => false

/-- Kind S of R103: called only from inside events. -/
def Instr.isSub : Instr → Bool
  | .tmrStart | .tmrCancel => true
  | .reset .. | .close | .chFail | .sndSend | .sndAck _ | .tmrTick | .tmrFire | .rcvFrame .. => false
  | .cksum _ | .encW .. | .encS .. | .decW _ | .decS _ | .seqInc _ | .seqOff .. | .inWin .. => false
  | .frameW .. | .frameS .. => false

/-- The two rows of the table that are frame formats, not operations (R91, R92). -/
def Instr.isFrame : Instr → Bool
  | .frameW .. | .frameS .. => true
  | .reset .. | .close | .chFail | .sndSend | .sndAck _ | .tmrTick | .tmrFire | .rcvFrame .. => false
  | .cksum _ | .encW .. | .encS .. | .decW _ | .decS _ | .seqInc _ | .seqOff .. | .inWin .. => false
  | .tmrStart | .tmrCancel => false

/-- Byte 0 of a format-W frame: `{EOT, SEQ}` (R91, R97). -/
def frameWHeader (eot : Bool) (seq : Seq) : Byte := (BitVec.ofBool eot ++ seq : BitVec 8)

/-- Byte 0 of a format-S frame: `{reserved, SEQ}` (R92). -/
def frameSHeader (reserved : BitVec 7) (seq : BitVec 1) : Byte := (reserved ++ seq : BitVec 8)

/-! ## Operands -/

/-- A natural number from its little-endian bytes. -/
def natOfBytes : List Byte → Nat
  | [] => 0
  | b :: bs => b.toNat + 256 * natOfBytes bs

/-- The little-endian bytes of `n`, at least one, at most `fuel`. -/
def bytesOfNatFuel : Nat → Nat → List Byte
  | 0, _ => []
  | fuel + 1, n => BitVec.ofNat 8 n :: (if n / 256 = 0 then [] else bytesOfNatFuel fuel (n / 256))

/-- The little-endian bytes of `n`, at least one. -/
def bytesOfNat (n : Nat) : List Byte := bytesOfNatFuel (n + 1) n

/-- `CFG.T_RTO` when RESET carries no `trto` bytes: the default of R13 (DESIGN CHOICE, notes/assumptions/2.md). -/
def defaultTrto : Nat := 100

/-- The `trto` operand: the bytes that end a RESET, none meaning the default (R13). -/
def decodeTrto : List Byte → Nat
  | [] => defaultTrto
  | b :: bs => natOfBytes (b :: bs)

/-- One bit carried in a byte: 0 or 1, nothing else. -/
def decodeBit (b : Byte) : Except DecodeError Bool :=
  if b = 0 then .ok false else if b = 1 then .ok true else .error .operandRange

/-- A sequence number carried in a byte: 0 to 127. -/
def decodeSeq (b : Byte) : Except DecodeError Seq :=
  if b.toNat < 128 then .ok (b.truncate 7) else .error .operandRange

/-- `CFG.ROLE`'s labels: 0 SENDER, 1 RECEIVER (R20). -/
def roleOfBit (b : Bool) : Role := if b then .receiver else .sender

/-- `CFG.MODE`'s labels: 0 SO, 1 WIN (R21). -/
def modeOfBit (b : Bool) : Mode := if b then .win else .so

/-- `CFG.ROLE` as the bit of R20. -/
def bitOfRole : Role → Bool
  | .sender => false
  | .receiver => true

/-- `CFG.MODE` as the bit of R21. -/
def bitOfMode : Mode → Bool
  | .so => false
  | .win => true

/-- A bit as an operand byte. -/
def byteOfBool (b : Bool) : Byte := if b then 1 else 0

/-- A sequence number as an operand byte. -/
def byteOfSeq (s : Seq) : Byte := s.zeroExtend 8

/-- The last check of a decode: the operands lie in the ranges of the rule. -/
def checked (e : DecodeError) (i : Instr) : Except DecodeError Instr :=
  if i.WellFormed then .ok i else .error e

/-! ## Operations -/

/-- RESET: role, mode, w, then the bytes of trto (R220). -/
def decodeReset : List Byte → Except DecodeError Instr
  | r :: m :: w :: t =>
    match decodeBit r, decodeBit m with
    | .ok r, .ok m => .ok (.reset (roleOfBit r) (modeOfBit m) w.toNat (decodeTrto t))
    | _, _ => .error .operandRange
  | _ => .error .operandCount

/-- ENC.W and ENC.S: seq, last, then the payload (R121, R122). -/
def decodeEnc (mk : Seq → List Byte → Bool → Instr) : List Byte → Except DecodeError Instr
  | s :: l :: payload =>
    match decodeSeq s, decodeBit l with
    | .ok s, .ok l => checked .operandRange (mk s payload l)
    | _, _ => .error .operandRange
  | _ => .error .operandCount

/-- SEQINC: x (R140). -/
def decodeSeqInc : List Byte → Except DecodeError Instr
  | [x] =>
    match decodeSeq x with
    | .ok x => .ok (.seqInc x)
    | .error e => .error e
  | _ => .error .operandCount

/-- SEQOFF: base, v (R141). -/
def decodeSeqOff : List Byte → Except DecodeError Instr
  | [b, v] =>
    match decodeSeq b, decodeSeq v with
    | .ok b, .ok v => .ok (.seqOff b v)
    | _, _ => .error .operandRange
  | _ => .error .operandCount

/-- INWIN: base, size, v (R142). -/
def decodeInWin : List Byte → Except DecodeError Instr
  | [b, n, v] =>
    match decodeSeq b, decodeSeq v with
    | .ok b, .ok v => checked .operandRange (.inWin b n.toNat v)
    | _, _ => .error .operandRange
  | _ => .error .operandCount

/-- RCV.FRAME: drop, then the datagram (R200). -/
def decodeRcvFrame : List Byte → Except DecodeError Instr
  | b :: d =>
    match decodeBit b with
    | .ok drop => checked .tooLong (.rcvFrame d drop)
    | .error e => .error e
  | [] => .error .operandCount

/-- An operation without operands. -/
def decodeBare (i : Instr) : List Byte → Except DecodeError Instr
  | [] => .ok i
  | _ :: _ => .error .operandCount

/-- The OP map of R103; every other value is reserved (R104). -/
def decodeOp : List Byte → Except DecodeError Instr
  | [] => .error .noOpcode
  | op :: args =>
    match op.toNat with
    | 0x00 => decodeReset args
    | 0x01 => decodeBare .close args
    | 0x02 => decodeBare .chFail args
    | 0x10 => checked .operandCount (.cksum args)
    | 0x11 => decodeEnc .encW args
    | 0x12 => decodeEnc .encS args
    | 0x13 => checked .tooLong (.decW args)
    | 0x14 => checked .tooLong (.decS args)
    | 0x20 => decodeSeqInc args
    | 0x21 => decodeSeqOff args
    | 0x22 => decodeInWin args
    | 0x30 => decodeBare .sndSend args
    | 0x31 => checked .tooLong (.sndAck args)
    | 0x40 => decodeBare .tmrStart args
    | 0x41 => decodeBare .tmrCancel args
    | 0x42 => decodeBare .tmrTick args
    | 0x43 => decodeBare .tmrFire args
    | 0x50 => decodeRcvFrame args
    | _ => .error .reservedOp

/-! ## Frames -/

/-- A datagram at the RX port read as a frame of the session's format (R90 to R94): the bytes carry no type and no format
(R96), so `CFG.MODE` says which of the two it is (R10). -/
def decodeFrame (mode : Mode) (d : Datagram) (drop : Bool) : Except DecodeError Instr :=
  match d with
  | b0 :: cks :: payload =>
    match mode with
    | .win => checked .tooLong (.frameW (b0.getLsbD 7) (b0.extractLsb' 0 7) cks payload drop)
    | .so => checked .tooLong (.frameS (b0.extractLsb' 1 7) (b0.extractLsb' 0 1) cks payload drop)
  | _ => .error .shortFrame

/-! ## Transactions -/

/-- The instruction of a transaction. The event port carries the operations of kind E only, the call port those of kinds
F and S (R103, R180). -/
def decodeTxn (mode : Mode) : Txn → Except DecodeError Instr
  | .event bytes =>
    match decodeOp bytes with
    | .ok i => if i.isEvent then .ok i else .error .notAnEvent
    | .error e => .error e
  | .call bytes =>
    match decodeOp bytes with
    | .ok i => if i.isEvent then .error .notACall else .ok i
    | .error e => .error e
  | .rx d drop => decodeFrame mode d drop
  | .channel _ => .error .notAnInstruction

/-! ## Encoding -/

/-- The bytes of an instruction: OP byte and operands, or the bytes of the frame (R97). -/
def encodeBytes : Instr → List Byte
  | .reset r m w t => 0x00 :: byteOfBool (bitOfRole r) :: byteOfBool (bitOfMode m) :: BitVec.ofNat 8 w :: bytesOfNat t
  | .close => [0x01]
  | .chFail => [0x02]
  | .cksum d => 0x10 :: d
  | .encW s p l => 0x11 :: byteOfSeq s :: byteOfBool l :: p
  | .encS s p l => 0x12 :: byteOfSeq s :: byteOfBool l :: p
  | .decW d => 0x13 :: d
  | .decS d => 0x14 :: d
  | .seqInc x => [0x20, byteOfSeq x]
  | .seqOff b v => [0x21, byteOfSeq b, byteOfSeq v]
  | .inWin b n v => [0x22, byteOfSeq b, BitVec.ofNat 8 n, byteOfSeq v]
  | .sndSend => [0x30]
  | .sndAck d => 0x31 :: d
  | .tmrStart => [0x40]
  | .tmrCancel => [0x41]
  | .tmrTick => [0x42]
  | .tmrFire => [0x43]
  | .rcvFrame d drop => 0x50 :: byteOfBool drop :: d
  | .frameW eot seq cks p _ => frameWHeader eot seq :: cks :: p
  | .frameS r seq cks p _ => frameSHeader r seq :: cks :: p

/-- The transaction that presents an instruction: events at the event port, functions and sub-operations as calls, frames
at the RX port. -/
def encodeTxn (i : Instr) : Txn :=
  match i with
  | .frameW _ _ _ _ drop | .frameS _ _ _ _ drop => .rx (encodeBytes i) drop
  | .reset .. | .close | .chFail | .sndSend | .sndAck _ | .tmrTick | .tmrFire | .rcvFrame .. => .event (encodeBytes i)
  | .cksum _ | .encW .. | .encS .. | .decW _ | .decS _ | .seqInc _ | .seqOff .. | .inWin .. => .call (encodeBytes i)
  | .tmrStart | .tmrCancel => .call (encodeBytes i)

/-- The mode in which the transaction of `i` is read as `i`: its own for a frame, any for an operation. -/
def Instr.readIn (i : Instr) (mode : Mode) : Bool :=
  match i with
  | .frameW .. => mode = .win
  | .frameS .. => mode = .so
  | .reset .. | .close | .chFail | .sndSend | .sndAck _ | .tmrTick | .tmrFire | .rcvFrame .. => true
  | .cksum _ | .encW .. | .encS .. | .decW _ | .decS _ | .seqInc _ | .seqOff .. | .inWin .. => true
  | .tmrStart | .tmrCancel => true

/-! ## The table's words -/

/-- The operand bytes, all zero, that an operation has at least: the table gives operands no bits. -/
def leastOperands (op : Nat) : Nat :=
  match op with
  | 0x00 => 3
  | 0x10 => 2
  | 0x11 => 2
  | 0x12 => 2
  | 0x20 => 1
  | 0x21 => 2
  | 0x22 => 3
  | 0x50 => 1
  | _ => 0

/-- The bytes of a word numbered as the table numbers bits: bits 7:0 are the first byte. -/
def bytesOfWord : Nat → Nat → List Byte
  | 0, _ => []
  | n + 1, w => BitVec.ofNat 8 w :: bytesOfWord n (w / 256)

/-- The transaction of a table word: 8 bits are an OP byte, presented at the port its kind uses; 16 bits or more are the
first bytes of a frame at the RX port. Operands the table gives no bits are zero. -/
def tableTxn (nbits w : Nat) : Txn :=
  match bytesOfWord (nbits / 8) w with
  | [op] =>
    let bytes := op :: List.replicate (leastOperands op.toNat) 0
    match decodeOp bytes with
    | .ok i => if i.isEvent then .event bytes else .call bytes
    | .error _ => .event bytes
  | bytes => .rx bytes false

/-- The mode in which `decodeTableWord` reads the 16-bit rows: that of `State.reset` (notes/assumptions/6.md, 28.md). -/
def tableMode : Mode := .so

/-- The instruction of a table word (the operations in any mode, a frame in `tableMode`). -/
def decodeTableWord (nbits w : Nat) : Option Instr :=
  match decodeTxn tableMode (tableTxn nbits w) with
  | .ok i => some i
  | .error _ => none

end Sys2Proof
end

