-- ==== Sys2Proof/Machine/State.lean ====
section
/-! DEFINITION. The state of one engine instance: the registers of 10_state.md, the environment's side of its ports (R44),
and two fields of the model's own (`inputs`, `result`). Plain data. -/

namespace Sys2Proof.Machine

/-- `R_STATE` (R39). -/
inductive RcvState where
  | awaitingFrame
  | complete
deriving DecidableEq, Repr

/-- The sub-causes of CorruptFrame (R123, R130). -/
inductive CorruptCause where
  | short
  | cksum
deriving DecidableEq, Repr

/-- What DEC.W and DEC.S return (R123, R124). -/
inductive Decoded where
  | ok (seq : Seq) (eot : Bool) (payload : List Byte)
  | corrupt (cause : CorruptCause)
deriving DecidableEq, Repr

/-- The error kinds of R230. -/
inductive ErrorKind where
  /-- Recovered by silent discard (R231). -/
  | corruptFrame
  /-- Fatal, entered by CH.FAIL (R232). -/
  | channelClosed
  /-- Never raised (R233). -/
  | timerRaceError
  /-- Recorded in `F_ACKUNSENT` (R234). -/
  | ackUnsent
deriving DecidableEq, Repr

/-- One transaction the engine hands to a port (R70, R71). -/
inductive PortAct where
  | tx (d : Datagram)
  | sinkWrite (p : List Byte)
  | sinkClose
deriving DecidableEq, Repr

/-- What a function of kind F returned (R103). -/
inductive FnResult where
  | none
  | byte (b : Byte)
  | frame (d : Datagram)
  | decoded (r : Decoded)
  | seq (x : Seq)
  | offset (n : Nat)
  | bool (b : Bool)
deriving DecidableEq, Repr

/-- The state. A register's rule stands beside it; a SENDER's registers exist in a RECEIVER and the other way round, at
their reset values (notes/assumptions/23.md). -/
structure State where
  /-- A session exists: a RESET has been accepted (R260). -/
  live : Bool
  /-- `CFG.ROLE` (R20). -/
  role : Role
  /-- `CFG.MODE` (R21). -/
  mode : Mode
  /-- `CFG.W` (R22). -/
  w : BitVec 8
  /-- `CFG.T_RTO` (R23). -/
  tRto : Nat
  /-- `S_BASE` (R25). -/
  sBase : Seq
  /-- `S_NEXT` (R26). -/
  sNext : Seq
  /-- `S_EOF` (R27). -/
  sEof : Bool
  /-- `S_STARTED` (R28). -/
  sStarted : Bool
  /-- `OUT`, oldest first; `OUT_CNT` is its length (R31). -/
  out : List Datagram
  /-- `T_ARMED` (R33). -/
  tArmed : Bool
  /-- `T_CNT` (R34). -/
  tCnt : Nat
  /-- `R_LAST` (R37). -/
  rLast : Seq
  /-- `R_FIRST` (R38). -/
  rFirst : Bool
  /-- `R_STATE` (R39). -/
  rState : RcvState
  /-- `STATUS.FAILED` (R41). -/
  failed : Bool
  /-- `STATUS.ERR` (R41). -/
  err : BitVec 3
  /-- `STATUS.CLOSED` (R41). -/
  closed : Bool
  /-- `F_ACKUNSENT` (R42). -/
  fAckUnsent : Bool
  /-- What the byte source still holds (R44, R69), one string per delivery of the source; a plain file is one string. -/
  src : List (List Byte)
  /-- What has been handed to TX, SINK.WRITE and SINK.CLOSE, oldest first (R70, R71). -/
  log : List PortAct
  /-- Datagrams in flight to the peer (R72). -/
  chOut : List Datagram
  /-- Datagrams in flight to this instance, or held for it by the Channel Adapter (R72, R77). -/
  chIn : List Datagram
  /-- What is presented next, in order (the model's own; notes/assumptions/18.md). -/
  inputs : List Txn
  /-- What the last called function returned (the model's own; notes/assumptions/5.md). -/
  result : FnResult
deriving DecidableEq, Repr

/-- Why a step stops with a fault. No operation of the engine does (R233, R234; 93_implementation_defined.md: no behaviour
has the treatment `stuck`). -/
inductive Fault where
  /-- TimerRaceError, the one error kind that would be a defect of the engine itself. Nobody raises it (R233): it is listed
  so that a statement can say so. Safe. -/
  | timerRaceError
deriving DecidableEq, Repr

/-- Why a step is refused: "it is not an operation of any run and changes nothing" (R104). All safe: the model takes no
step where the engine takes none. -/
inductive Refusal where
  /-- An instruction without a meaning in this model; raised by `exec` only. Safe. -/
  | notModelled (mnemonic : String)
  /-- The bytes presented are no instruction; raised by `step` (R104, R101). Safe. -/
  | rejected (e : DecodeError)
  /-- A sub-operation (TMR.START, TMR.CANCEL) presented by itself: it runs only inside the transition of its caller (R103,
  R180, R181, R247; notes/assumptions/32.md); raised by `step`. Safe. -/
  | subOperation
  /-- Any operation but RESET before the first RESET (R260); raised by every operation but RESET. Safe. -/
  | noSession
  /-- Any operation but RESET after CLOSE or CH.FAIL (R41, R223); raised by every operation but RESET. Safe. -/
  | sessionOver
  /-- An operation of the other role (R104, R246); raised by SND.*, TMR.*, INWIN and RCV.FRAME. Safe. -/
  | wrongRole
  /-- The enabling condition is false (R104); raised by SND.SEND, SND.ACK and TMR.FIRE. Safe. -/
  | notEnabled
  /-- RESET with `w` outside 1..128 in mode WIN, or a SENDER's `trto` below 1 (R220). Safe. -/
  | illegalParameter
  /-- An operand outside the range that is part of the operation's type (R120, R121, R122, R140 to R142, U20); raised by the
  functions. Safe. -/
  | outOfDomain
  /-- A datagram of more than 128 bytes cannot be presented (R101, U3); raised by DEC.*, SND.ACK, RCV.FRAME and the frames.
  Safe. -/
  | datagramTooLong
  /-- The channel holds no datagram at that position; raised by `step` for a channel act. Safe. -/
  | noSuchDatagram
deriving DecidableEq, Repr

/-- How a step ends. -/
abbrev Out := Host.Outcome State Fault Refusal

/-- The machine right after a RESET (R45). The session parameters are the ones the labels 0 name, SENDER and SO, with the
default `T_RTO` (DESIGN CHOICE, notes/assumptions/6.md); the environment has nothing to offer yet. -/
def State.reset : State where
  live := true
  role := .sender
  mode := .so
  w := 1
  tRto := 100
  sBase := 0
  sNext := 0
  sEof := false
  sStarted := false
  out := []
  tArmed := false
  tCnt := 0
  rLast := 1
  rFirst := true
  rState := .awaitingFrame
  failed := false
  err := 0
  closed := false
  fAckUnsent := false
  src := []
  log := []
  chOut := []
  chIn := []
  inputs := []
  result := .none

end Sys2Proof.Machine
end

