-- ==== Sys2Proof/Machine/Operands.lean ====
section
/-! DEFINITION. The pure functions of the engine: the Frame Codec (R120 to R125), sequence and window arithmetic (R140 to
R142), and the pseudo-operations that pick the form of the mode (R106). They read no register (R129). -/

namespace Sys2Proof.Machine

/-! ## Frame Codec -/

/-- The 8-bit sum of the bytes, carries dropped (R120). -/
def sumBytes : List Byte → Byte
  | [] => 0
  | b :: bs => b + sumBytes bs

/-- CKSUM (R120): the one's complement of the sum with byte 1 taken as 0. -/
def cksum (d : Datagram) : Byte := ~~~ sumBytes (d.set 1 0)

/-- A frame from its byte 0 and payload: byte 1 zeroed, then filled with the checksum of the whole (R97). -/
def assemble (byte0 : Byte) (payload : List Byte) : Datagram :=
  let d := byte0 :: 0 :: payload
  d.set 1 (cksum d)

/-- ENC.W (R121): byte 0 is `{last, seq}`. -/
def encodeW (seq : Seq) (payload : List Byte) (last : Bool) : Datagram :=
  assemble (BitVec.ofBool last ++ seq : BitVec 8) payload

/-- ENC.S (R122): byte 0 is `{0000000, seq[0]}`; `last` is not encoded. -/
def encodeS (seq : Seq) (payload : List Byte) (_last : Bool) : Datagram :=
  assemble (seq.zeroExtend 8) payload

/-- The default `SO_EOT_RULE` (R15, R124): final iff the payload is shorter than CHUNK
(DESIGN CHOICE to take the default, notes/assumptions/14.md). -/
def soEotRule (d : Datagram) : Bool := d.length - 2 < Config.chunk

/-- The two checks of DEC, length first (R99, R130), then the fields by `read`. -/
def decodeWith (read : Byte → List Byte → Decoded) (d : Datagram) : Decoded :=
  match d with
  | b0 :: b1 :: payload => if cksum d = b1 then read b0 payload else .corrupt .cksum
  | _ => .corrupt .short

/-- DEC.W (R123). -/
def decodeW (d : Datagram) : Decoded :=
  decodeWith (fun b0 payload => .ok (b0.extractLsb' 0 7) (b0.getLsbD 7) payload) d

/-- DEC.S (R124): bits 7:1 of byte 0 are ignored (R100). -/
def decodeS (d : Datagram) : Decoded :=
  decodeWith (fun b0 payload => .ok ((b0.extractLsb' 0 1).zeroExtend 7) (soEotRule d) payload) d

/-- `ENC`: the form of the mode (R106). -/
def enc (mode : Mode) (seq : Seq) (payload : List Byte) (last : Bool) : Datagram :=
  match mode with
  | .win => encodeW seq payload last
  | .so => encodeS seq payload last

/-- `DEC`: the form of the mode (R106). -/
def dec (mode : Mode) (d : Datagram) : Decoded :=
  match mode with
  | .win => decodeW d
  | .so => decodeS d

/-- ENCACK (R125): no payload, end flag 0. -/
def encAck (mode : Mode) (s : Seq) : Datagram := enc mode s [] false

/-! ## Sequence and window arithmetic -/

/-- `N` (R10, R21). -/
def modulus : Mode → Nat
  | .so => 2
  | .win => 128

/-- SEQINC (R140). -/
def seqInc (n : Nat) (x : Seq) : Seq := if x.toNat = n - 1 then 0 else x + 1

/-- SEQOFF (R141): the circular distance from `base` forward to `v`. -/
def seqOff (n : Nat) (base v : Seq) : Nat :=
  if base.toNat ≤ v.toNat then v.toNat - base.toNat else v.toNat + n - base.toNat

/-- `SEQLE_base` (R106, R144): `a` is at or before `b` as seen from `base`. -/
def seqLe (n : Nat) (base a b : Seq) : Bool := seqOff n base a ≤ seqOff n base b

/-- INWIN (R142), by the two linear ranges. -/
def inWindow (n : Nat) (base : Seq) (size : Nat) (v : Seq) : Bool :=
  if base.toNat + size ≤ n then base.toNat ≤ v.toNat && v.toNat < base.toNat + size
  else base.toNat ≤ v.toNat || v.toNat < base.toNat + size - n

end Sys2Proof.Machine
end

