-- ==== Sys2Proof/Machine/Flags.lean ====
section
/-! DEFINITION. What is computed from the registers and not stored: `N`, `Weff`, `OUT_CNT`, `S_PHASE` (R29), the timer state
(R35), `FIN` and the `STATUS` byte (R43), the error codes (R230). -/

namespace Sys2Proof.Machine

/-- `N` of this session (R21). -/
def State.n (s : State) : Nat := modulus s.mode

/-- The effective window size (R22). -/
def State.weff (s : State) : Nat :=
  match s.mode with
  | .so => 1
  | .win => s.w.toNat

/-- `OUT_CNT` (R31). -/
def State.outCnt (s : State) : Nat := s.out.length

/-- The values of `S_PHASE` (R29). -/
inductive Phase where
  | failed
  | closed
  | done
  | fill
  | wait
deriving DecidableEq, Repr

/-- `S_PHASE` (R29). -/
def State.phase (s : State) : Phase :=
  if s.failed then .failed
  else if s.closed then .closed
  else if s.sEof && s.outCnt = 0 then .done
  else if s.outCnt < s.weff && !s.sEof then .fill
  else .wait

/-- The timer's states (R35). -/
inductive TimerState where
  | idle
  | running
  | expired
deriving DecidableEq, Repr

/-- The timer's state (R35). -/
def State.timer (s : State) : TimerState :=
  if s.tArmed then (if s.tCnt = 0 then .expired else .running) else .idle

/-- `STATUS.FIN` (R43), whatever FAILED and CLOSED hold. -/
def State.fin (s : State) : Bool :=
  match s.role with
  | .sender => s.sEof && s.outCnt = 0
  | .receiver => s.rState = .complete

/-- The `STATUS` byte (R43): bit 7 CLOSED, 6:4 ERR, 3 T_ARMED (0 in a RECEIVER), 2 F_ACKUNSENT, 1 FAILED, 0 FIN. -/
def State.status (s : State) : Byte :=
  (BitVec.ofBool s.closed ++ s.err ++ BitVec.ofBool (s.role = .sender && s.tArmed) ++ BitVec.ofBool s.fAckUnsent
    ++ BitVec.ofBool s.failed ++ BitVec.ofBool s.fin : BitVec 8)

/-- The numeric codes of R230. -/
def ErrorKind.code : ErrorKind → BitVec 3
  | .corruptFrame => 1
  | .channelClosed => 2
  | .timerRaceError => 3
  | .ackUnsent => 4

end Sys2Proof.Machine
end

