-- ==== Sys2Proof/Machine/Ops.lean ====
section
/-! DEFINITION. The named operations the meanings are made of: who may run (R104, R223, R260), the ports (R69 to R71), the
OUT primitives (R67), the timer (R180, R181), a new session (R45, R220), the entry of the fatal error (R222, R241), and the two
atomic operations that consume a datagram (R170, R200). -/

namespace Sys2Proof.Machine

/-! ## Who may run -/

/-- Every operation but RESET: refused before the first RESET (R260) and after CLOSE or CH.FAIL (R41, R223). -/
def whenLive (s : State) (k : Out) : Out :=
  if s.live then (if s.failed || s.closed then .refused .sessionOver else k) else .refused .noSession

/-- An operation of one role (R104, R246). -/
def whenRole (s : State) (r : Role) (k : Out) : Out := if s.role = r then k else .refused .wrongRole

/-- An event with an enabling condition (R104). -/
def whenEnabled (c : Bool) (k : Out) : Out := if c then k else .refused .notEnabled

/-- A function on the operands of its domain (R120 to R122, R140 to R142, U20). -/
def whenDomain (c : Bool) (k : Out) : Out := if c then k else .refused .outOfDomain

/-- A datagram the RX port can present (R101). -/
def whenPresentable (d : Datagram) (k : Out) : Out :=
  if d.length ≤ Config.maxDgram then k else .refused .datagramTooLong

/-! ## Ports and stores -/

/-- `TX(d)` (R71): `d` is handed to the Channel Adapter and is in flight (R72). -/
def State.tx (s : State) (d : Datagram) : State := { s with log := s.log ++ [.tx d], chOut := s.chOut ++ [d] }

/-- `TX` of each datagram of a list, in order (R71). -/
def State.txAll (s : State) : List Datagram → State
  | [] => s
  | d :: ds => (s.tx d).txAll ds

/-- `SINK.WRITE(p)` (R70). -/
def State.sinkWrite (s : State) (p : List Byte) : State := { s with log := s.log ++ [.sinkWrite p] }

/-- `SINK.CLOSE()` (R70). -/
def State.sinkClose (s : State) : State := { s with log := s.log ++ [.sinkClose] }

/-- One `SRC.READ(n)`: what it returns and what the source then holds (R69). The source gives at most what it has
together; a read shorter than `n` is all of one delivery. -/
def readSource (n : Nat) : List (List Byte) → List Byte × List (List Byte)
  | [] => ([], [])
  | seg :: rest => if seg.length ≤ n then (seg, rest) else (seg.take n, seg.drop n :: rest)

/-- `OUT.APPEND(f)` (R67). -/
def State.outAppend (s : State) (f : Datagram) : State := { s with out := s.out ++ [f] }

/-- `OUT.DROPFRONT(k)` (R67). -/
def State.outDropFront (s : State) (k : Nat) : State := { s with out := s.out.drop k }

/-- TMR.START (R180). -/
def State.timerStart (s : State) : State := { s with tArmed := true, tCnt := s.tRto }

/-- TMR.CANCEL (R181). -/
def State.timerCancel (s : State) : State := { s with tArmed := false, tCnt := 0 }

/-- The result of a function at the model's result port (notes/assumptions/5.md). -/
def State.returning (s : State) (r : FnResult) : State := { s with result := r }

/-! ## Session -/

/-- A new session (R45, R220): every register at its reset value; the ports are left alone. It is also the only way out of
FAILED and CLOSED (R242). -/
def State.newSession (s : State) (role : Role) (mode : Mode) (w trto : Nat) : State :=
  { s with
    live := true
    role := role
    mode := mode
    w := BitVec.ofNat 8 (match mode with | .so => 1 | .win => w)
    tRto := trto
    sBase := 0
    sNext := 0
    sEof := false
    sStarted := false
    out := []
    tArmed := false
    tCnt := 0
    rLast := BitVec.ofNat 7 (modulus mode - 1)
    rFirst := true
    rState := .awaitingFrame
    failed := false
    err := 0
    closed := false
    fAckUnsent := false }

/-- The timer is cancelled before a teardown, in a SENDER (R189, R221, R222). -/
def State.teardownTimer (s : State) : State :=
  match s.role with
  | .sender => s.timerCancel
  | .receiver => s

/-- Entry of a fatal error (R222, R241): timer cancelled, a receiver's sink closed unless it is already, ERR and FAILED set,
nothing else saved or changed. There is no vector and no handler; the way back is `newSession` (R242). -/
def State.enterFatal (s : State) (k : ErrorKind) : State :=
  let s := s.teardownTimer
  let s := match s.role, s.rState with
    | .receiver, .awaitingFrame => s.sinkClose
    | .receiver, .complete => s
    | .sender, _ => s
  { s with err := k.code, failed := true }

/-! ## The atomic operations that consume a datagram -/

/-- An ack of `k` frames, the last with number `a`, is accepted (R174 to R176): the timer is cancelled, the frames leave OUT,
the base moves past `a`, and in mode WIN the timer starts again unless everything has been sent and acknowledged. -/
def State.acceptAck (s : State) (a : Seq) (k : Nat) : State :=
  let unsent : Bool := s.outCnt < k
  let s1 := s.timerCancel
  let s2 := { s1 with fAckUnsent := s.fAckUnsent || unsent }
  let s3 := s2.outDropFront (if unsent then s.outCnt else k)
  let s4 := { s3 with sBase := seqInc s.n a }
  match s.mode with
  | .so => s4
  | .win => if s4.out.isEmpty && s.sEof then s4 else s4.timerStart

/-- The body of SND.ACK (R170 to R178). -/
def State.ackEffect (s : State) (d : Datagram) : State :=
  match dec s.mode d with
  | .corrupt _ => s
  | .ok a _ _ =>
    let off := seqOff s.n s.sBase a
    if off < s.weff then s.acceptAck a (off + 1) else s

/-- SND.ACK is enabled: the phase is WAIT (R150); the datagram is the operand. -/
def State.canAck (s : State) : Bool := s.phase = .wait

/-- SND.ACK (R170) with its enabling condition; otherwise the datagram is not consumed (R77). -/
def takeAck (d : Datagram) (s : State) : Out :=
  whenLive s (whenRole s .sender (whenPresentable d (whenEnabled s.canAck (.next (s.ackEffect d)))))

/-- The accept test of the mode (R203, R205). -/
def State.accepts (s : State) (seq : Seq) : Bool :=
  match s.mode with
  | .win => seq = seqInc s.n s.rLast
  | .so => s.rFirst || seq ≠ s.rLast

/-- The accept branch of RCV.FRAME, in the order of R200: write, cursor, ack, then close and COMPLETE if final. -/
def State.acceptFrame (s : State) (seq : Seq) (eot : Bool) (payload : List Byte) : State :=
  let s := s.sinkWrite payload
  let s := { s with rLast := seq, rFirst := false }
  let s := s.tx (encAck s.mode s.rLast)
  if eot then { s.sinkClose with rState := .complete } else s

/-- The body of RCV.FRAME (R200 to R209). -/
def State.frameEffect (s : State) (d : Datagram) (drop : Bool) : State :=
  match s.rState with
  | .complete => s
  | .awaitingFrame =>
    if drop then s
    else match dec s.mode d with
      | .corrupt _ => s
      | .ok seq eot payload =>
        if s.accepts seq then s.acceptFrame seq eot payload else s.tx (encAck s.mode s.rLast)

/-- RCV.FRAME (R200) with its enabling condition. -/
def takeFrame (d : Datagram) (drop : Bool) (s : State) : Out :=
  whenLive s (whenRole s .receiver (whenPresentable d (.next (s.frameEffect d drop))))

/-- A datagram arrives at the RX port (R236). It is taken as SND.ACK or RCV.FRAME as soon as the instance can take it
(R261); otherwise it stays with the Channel Adapter (R77, R237); before the first RESET it is lost (R262).
DEDUCED, notes/assumptions/12.md. -/
def arrive (d : Datagram) (drop : Bool) (s : State) : Out :=
  whenPresentable d
    (if s.live then
      if s.failed || s.closed then .next { s with chIn := s.chIn ++ [d] }
      else match s.role with
        | .receiver => .next (s.frameEffect d drop)
        | .sender => if s.canAck then .next (s.ackEffect d) else .next { s with chIn := s.chIn ++ [d] }
    else .next s)

end Sys2Proof.Machine
end

