-- ==== Sys2Proof/Machine/Codec.lean ====
section
/-! DEFINITION. The Frame Codec's operations as functions called at the port: CKSUM, ENC.W, ENC.S, DEC.W, DEC.S
(40_frame_codec.md). They change no register (R129). -/

namespace Sys2Proof.Machine

/-- CKSUM (R120), defined from two bytes on (U20). -/
def execCksum (d : Datagram) (s : State) : Out :=
  whenLive s (whenDomain (2 ≤ d.length) (.next (s.returning (.byte (cksum d)))))

/-- ENC.W (R121). -/
def execEncW (seq : Seq) (payload : List Byte) (last : Bool) (s : State) : Out :=
  whenLive s (whenDomain (payload.length ≤ Config.chunk) (.next (s.returning (.frame (encodeW seq payload last)))))

/-- ENC.S (R122). -/
def execEncS (seq : Seq) (payload : List Byte) (last : Bool) (s : State) : Out :=
  whenLive s
    (whenDomain (seq.toNat < 2 && payload.length ≤ Config.chunk)
      (.next (s.returning (.frame (encodeS seq payload last)))))

/-- DEC.W (R123). -/
def execDecW (d : Datagram) (s : State) : Out :=
  whenLive s (whenPresentable d (.next (s.returning (.decoded (decodeW d)))))

/-- DEC.S (R124). -/
def execDecS (d : Datagram) (s : State) : Out :=
  whenLive s (whenPresentable d (.next (s.returning (.decoded (decodeS d)))))

end Sys2Proof.Machine
end

