-- ==== Sys2Proof/Machine/Frames.lean ====
section
/-! DEFINITION. A frame at the RX port (R91, R92). Nothing in its bytes says data or ack, nor which format it is (R96, R263):
the instance reads them by its own role and mode. -/

namespace Sys2Proof.Machine

/-- FRAME.W (R91): the bytes `{EOT, SEQ}`, checksum, payload arrive. -/
def execFrameW (eot : Bool) (seq : Seq) (cks : Byte) (payload : List Byte) (drop : Bool) (s : State) : Out :=
  arrive (frameWHeader eot seq :: cks :: payload) drop s

/-- FRAME.S (R92): the bytes `{reserved, SEQ}`, checksum, payload arrive. -/
def execFrameS (reserved : BitVec 7) (seq : BitVec 1) (cks : Byte) (payload : List Byte) (drop : Bool) (s : State) : Out :=
  arrive (frameSHeader reserved seq :: cks :: payload) drop s

end Sys2Proof.Machine
end

