-- ==== Sys2Proof/Machine/Receiver.lean ====
section
/-! DEFINITION. The receiver: RCV.FRAME (45_receiver.md). -/

namespace Sys2Proof.Machine

/-- RCV.FRAME (R200). -/
def execRcvFrame (d : Datagram) (drop : Bool) (s : State) : Out := takeFrame d drop s

end Sys2Proof.Machine
end

