-- ==== Sys2Proof/Machine/Sender.lean ====
section
/-! DEFINITION. The sender's main loop: SND.SEND (42_sender.md) and SND.ACK (43_ack_processor.md). -/

namespace Sys2Proof.Machine

/-- When SND.SEND starts the timer (R153). -/
def State.startsTimer (s : State) : Bool := s.mode = .so || !s.sStarted

/-- The body of SND.SEND (R151). -/
def State.sendEffect (s : State) : State :=
  let r := readSource Config.chunk s.src
  let last : Bool := r.1.length < Config.chunk
  let f := enc s.mode s.sNext r.1 last
  let starts := s.startsTimer
  let s := { s with src := r.2 }
  let s := (s.outAppend f).tx f
  let s := if starts then s.timerStart else s
  { s with sStarted := true, sNext := seqInc s.n s.sNext, sEof := s.sEof || last }

/-- SND.SEND is enabled: the phase is FILL (R150). -/
def State.canSend (s : State) : Bool := s.phase = .fill

/-- SND.SEND (R151). -/
def execSndSend (s : State) : Out :=
  whenLive s (whenRole s .sender (whenEnabled s.canSend (.next s.sendEffect)))

/-- SND.ACK (R170). -/
def execSndAck (d : Datagram) (s : State) : Out := takeAck d s

end Sys2Proof.Machine
end

