-- ==== Sys2Proof/Machine/Sequence.lean ====
section
/-! DEFINITION. Sequence and window arithmetic called at the port: SEQINC, SEQOFF, INWIN (41_seq_window_arith.md), with the
modulus `N` of the session. -/

namespace Sys2Proof.Machine

/-- SEQINC (R140). -/
def execSeqInc (x : Seq) (s : State) : Out :=
  whenLive s (whenDomain (x.toNat < s.n) (.next (s.returning (.seq (seqInc s.n x)))))

/-- SEQOFF (R141). -/
def execSeqOff (base v : Seq) (s : State) : Out :=
  whenLive s
    (whenDomain (base.toNat < s.n && v.toNat < s.n) (.next (s.returning (.offset (seqOff s.n base v)))))

/-- INWIN (R142), an operation of the SENDER (R103, R246). -/
def execInWin (base : Seq) (size : Nat) (v : Seq) (s : State) : Out :=
  whenLive s
    (whenRole s .sender
      (whenDomain (base.toNat < s.n && size ≤ s.n && v.toNat < s.n)
        (.next (s.returning (.bool (inWindow s.n base size v))))))

end Sys2Proof.Machine
end

