-- ==== Sys2Proof/Machine/Session.lean ====
section
/-! DEFINITION. Session operations: RESET, CLOSE, CH.FAIL (46_session.md). -/

namespace Sys2Proof.Machine

/-- RESET may be accepted with these parameters (R220). -/
def legalParameters (role : Role) (mode : Mode) (w trto : Nat) : Bool :=
  (match mode with | .so => true | .win => decide (1 ≤ w ∧ w ≤ Config.maxWindow))
    && (match role with | .sender => decide (1 ≤ trto) | .receiver => true)

/-- RESET (R220): enabled in every state; illegal parameters are refused. -/
def execReset (role : Role) (mode : Mode) (w trto : Nat) (s : State) : Out :=
  if legalParameters role mode w trto then .next (s.newSession role mode w trto) else .refused .illegalParameter

/-- CLOSE (R221). -/
def execClose (s : State) : Out := whenLive s (.next { s.teardownTimer with closed := true })

/-- CH.FAIL (R222): the entry of ChannelClosed. -/
def execChFail (s : State) : Out := whenLive s (.next (s.enterFatal .channelClosed))

end Sys2Proof.Machine
end

