-- ==== Sys2Proof/Machine/Timer.lean ====
section
/-! DEFINITION. The retransmission timer: TMR.START, TMR.CANCEL, TMR.TICK, TMR.FIRE (44_timer.md). -/

namespace Sys2Proof.Machine

/-- TMR.START (R180), as its callers make it inside their own transition (`State.timerStart` in SND.SEND and SND.ACK); `step`
never runs it by itself. -/
def execTmrStart (s : State) : Out := whenLive s (whenRole s .sender (.next s.timerStart))

/-- TMR.CANCEL (R181), as its callers make it inside their own transition (`State.timerCancel` in SND.ACK, CLOSE and CH.FAIL);
`step` never runs it by itself. -/
def execTmrCancel (s : State) : Out := whenLive s (whenRole s .sender (.next s.timerCancel))

/-- TMR.TICK (R182). -/
def execTmrTick (s : State) : Out :=
  whenLive s (whenRole s .sender (.next (if s.timer = .running then { s with tCnt := s.tCnt - 1 } else s)))

/-- TMR.FIRE (R183): every frame of OUT, oldest first, then the full delay again; `T_ARMED` stays 1. -/
def execTmrFire (s : State) : Out :=
  whenLive s
    (whenRole s .sender (whenEnabled (s.timer = .expired) (.next { s.txAll s.out with tCnt := s.tRto })))

end Sys2Proof.Machine
end

