-- ==== Sys2Proof/Machine/Dispatch.lean ====
section
/-! DEFINITION. One arm per instruction. -/

namespace Sys2Proof.Machine

def exec (i : Instr) (s : State) : Host.Outcome State Fault Refusal :=
  match i with
  | .reset role mode w trto => Sys2Proof.Machine.execReset role mode w trto s
  | .close => Sys2Proof.Machine.execClose s
  | .chFail => Sys2Proof.Machine.execChFail s
  | .cksum d => Sys2Proof.Machine.execCksum d s
  | .encW seq payload last => Sys2Proof.Machine.execEncW seq payload last s
  | .encS seq payload last => Sys2Proof.Machine.execEncS seq payload last s
  | .decW d => Sys2Proof.Machine.execDecW d s
  | .decS d => Sys2Proof.Machine.execDecS d s
  | .seqInc x => Sys2Proof.Machine.execSeqInc x s
  | .seqOff base v => Sys2Proof.Machine.execSeqOff base v s
  | .inWin base size v => Sys2Proof.Machine.execInWin base size v s
  | .sndSend => Sys2Proof.Machine.execSndSend s
  | .sndAck d => Sys2Proof.Machine.execSndAck d s
  | .tmrStart => Sys2Proof.Machine.execTmrStart s
  | .tmrCancel => Sys2Proof.Machine.execTmrCancel s
  | .tmrTick => Sys2Proof.Machine.execTmrTick s
  | .tmrFire => Sys2Proof.Machine.execTmrFire s
  | .rcvFrame d drop => Sys2Proof.Machine.execRcvFrame d drop s
  | .frameW eot seq cks payload drop => Sys2Proof.Machine.execFrameW eot seq cks payload drop s
  | .frameS reserved seq cks payload drop => Sys2Proof.Machine.execFrameS reserved seq cks payload drop s

end Sys2Proof.Machine
end

