-- ==== Sys2Proof/Machine/Channel.lean ====
section
/-! DEFINITION. What is presented to the engine: an operation at the event or call port, a datagram at the RX port, and the
acts of the channel on the datagrams in flight (R72, U11, U12). -/

namespace Sys2Proof.Machine

/-- An operation presented at the event or call port: decode, then run. A sub-operation is no transition of its own (R103,
R180, R181, R247; notes/assumptions/32.md): only its callers' meanings perform it. -/
def presentOp (t : Txn) (s : State) : Out :=
  match decodeTxn s.mode t with
  | .ok i => if i.isSub then .refused .subOperation else exec i s
  | .error e => .refused (.rejected e)

/-- A datagram at the RX port: a frame of the session's format runs as its instruction; one shorter than a header is no frame
(R99) and arrives all the same (notes/assumptions/27.md). -/
def presentRx (d : Datagram) (drop : Bool) (s : State) : Out :=
  match decodeTxn s.mode (.rx d drop) with
  | .ok i => exec i s
  | .error .shortFrame => arrive d drop s
  | .error e => .refused (.rejected e)

/-- The datagrams in flight in one direction. -/
def State.flight (s : State) : Direction → List Datagram
  | .toPeer => s.chOut
  | .fromPeer => s.chIn

/-- The same state with other datagrams in flight in one direction. -/
def State.withFlight (s : State) (dir : Direction) (ds : List Datagram) : State :=
  match dir with
  | .toPeer => { s with chOut := ds }
  | .fromPeer => { s with chIn := ds }

/-- An act on the datagram at one position; refused where there is none. -/
def onDatagram (s : State) (dir : Direction) (i : Nat) (k : Datagram → List Datagram → Out) : Out :=
  match (s.flight dir)[i]? with
  | some d => k d (s.flight dir)
  | none => .refused .noSuchDatagram

/-- The acts of the channel (R72). `present` takes the datagram out of flight and puts it to the RX port; the others only
change what is in flight. -/
def channelAct (a : ChanAct) (s : State) : Out :=
  match a with
  | .appear dir d => .next (s.withFlight dir (s.flight dir ++ [d]))
  | .leave dir i => onDatagram s dir i fun _ ds => .next (s.withFlight dir (ds.eraseIdx i))
  | .corrupt dir i offset b => onDatagram s dir i fun d ds => .next (s.withFlight dir (ds.set i (d.set offset b)))
  | .shorten dir i n => onDatagram s dir i fun d ds => .next (s.withFlight dir (ds.set i (d.take n)))
  | .duplicate dir i => onDatagram s dir i fun d ds => .next (s.withFlight dir (ds ++ [d]))
  | .present i drop => onDatagram s .fromPeer i fun d ds => presentRx d drop (s.withFlight .fromPeer (ds.eraseIdx i))

/-- One transaction. -/
def presentTxn (t : Txn) (s : State) : Out :=
  match t with
  | .event bytes => presentOp (.event bytes) s
  | .call bytes => presentOp (.call bytes) s
  | .rx d drop => presentRx d drop s
  | .channel a => channelAct a s

end Sys2Proof.Machine
end

