-- ==== Sys2Proof/Machine/Step.lean ====
section
/-! DEFINITION. One step: the next entry of `inputs` is taken (the environment's order, R74, R238; notes/assumptions/18.md).
With nothing presented the engine waits (R250). -/

namespace Sys2Proof.Machine

/-- One step of the machine. -/
def step (s : State) : Host.Outcome State Fault Refusal :=
  match s.inputs with
  | [] => .next s
  | t :: rest => presentTxn t { s with inputs := rest }

/-- `s` with a table word presented next (what `decodeTableWord` reads): a program is nothing but what the environment
presents, so nothing else changes (notes/assumptions/19.md). -/
def State.withFetchWord (s : State) (nbits w : Nat) : State :=
  { s with inputs := tableTxn nbits w :: s.inputs }

end Sys2Proof.Machine
end

