-- ==== Sys2Proof/Machine/Net.lean ====
section
/-! DEFINITION. Two instances and the channel between them (R72, R78): they share nothing, and a datagram reaches the other
side only by being carried. -/

namespace Sys2Proof.Machine

/-- A sender's and a receiver's engine. -/
structure Net where
  sender : State
  receiver : State
deriving DecidableEq, Repr

/-- One choice of the environment of the pair: a transaction at one instance, or a datagram carried across. -/
inductive NetAct where
  | atSender (t : Txn)
  | atReceiver (t : Txn)
  /-- The datagram at position `i` of what the sender has in flight moves to the receiver's side. -/
  | carryData (i : Nat)
  /-- The same from the receiver to the sender. -/
  | carryAck (i : Nat)
deriving DecidableEq, Repr

/-- `d` leaves one instance's outgoing flight and joins the other's incoming one. -/
def carry (i : Nat) (a b : State) : Option (State × State) :=
  match a.chOut[i]? with
  | some d => some ({ a with chOut := a.chOut.eraseIdx i }, { b with chIn := b.chIn ++ [d] })
  | none => none

/-- One step of the pair; `none` where the act is refused or stops. -/
def Net.step (n : Net) : NetAct → Option Net
  | .atSender t =>
    match presentTxn t n.sender with
    | .next s => some { n with sender := s }
    | .fault _ | .refused _ => none
  | .atReceiver t =>
    match presentTxn t n.receiver with
    | .next s => some { n with receiver := s }
    | .fault _ | .refused _ => none
  | .carryData i => (carry i n.sender n.receiver).map fun p => { sender := p.1, receiver := p.2 }
  | .carryAck i => (carry i n.receiver n.sender).map fun p => { sender := p.2, receiver := p.1 }

end Sys2Proof.Machine
end

