-- ==== Sys2Proof/Safety.lean ====
section
/-! DEFINITION. The terms in which statements about the engine are made: a valid frame (R102), a session that runs, what has
gone through the ports, the invariants of R30 and R187, a successful end, and the delivery invariant behind R211. -/

namespace Sys2Proof.Machine

/-! ## Frames -/

/-- The sum of the bytes as a natural number. -/
def natSum : List Byte → Nat
  | [] => 0
  | b :: bs => b.toNat + natSum bs

/-- A valid frame, as R102 characterises it. -/
abbrev ValidFrame (d : Datagram) : Prop := 2 ≤ d.length ∧ natSum d % 256 = 255

/-! ## Sessions -/

/-- A session is running: RESET has been accepted, and neither CLOSE nor CH.FAIL since (R223, R260). -/
def State.Running (s : State) : Prop := s.live = true ∧ s.failed = false ∧ s.closed = false

/-- A running SENDER. -/
def State.Sending (s : State) : Prop := s.Running ∧ s.role = .sender

/-- A running RECEIVER. -/
def State.Receiving (s : State) : Prop := s.Running ∧ s.role = .receiver

/-- The transfer has ended well at this side: FIN, and none of the marks of R41 and R42. -/
def State.Succeeded (s : State) : Prop := s.fin = true ∧ s.failed = false ∧ s.fAckUnsent = false

/-! ## Ports -/

/-- What was handed to TX, in order. -/
def txs : List PortAct → List Datagram
  | [] => []
  | .tx d :: as => d :: txs as
  | .sinkWrite _ :: as => txs as
  | .sinkClose :: as => txs as

/-- The arguments of SINK.WRITE, in order. -/
def writes : List PortAct → List (List Byte)
  | [] => []
  | .sinkWrite p :: as => p :: writes as
  | .tx _ :: as => writes as
  | .sinkClose :: as => writes as

/-- How often SINK.CLOSE was called. -/
def closes : List PortAct → Nat
  | [] => 0
  | .sinkClose :: as => closes as + 1
  | .tx _ :: as => closes as
  | .sinkWrite _ :: as => closes as

/-- The content of the sink: the written byte sequences one after the other (R70). -/
def sinkContent (as : List PortAct) : List Byte := (writes as).flatten

/-! ## Invariants -/

/-- What the registers of a live session satisfy, whatever is presented (R22, R23, R25, R26, R30 (a), R31, R34, R35, R37, R41,
R176, R230, and the reset values of the other role's registers). -/
structure RegInv (s : State) : Prop where
  window : 1 ≤ s.w.toNat ∧ s.w.toNat ≤ 128
  windowSo : s.mode = .so → s.w = 1
  delay : s.role = .sender → 1 ≤ s.tRto
  parity : s.mode = .so → s.sBase.toNat < 2 ∧ s.sNext.toNat < 2 ∧ s.rLast.toNat < 2
  idleCount : s.tArmed = false → s.tCnt = 0
  countBound : s.tCnt ≤ s.tRto
  errCode : s.err = 0 ∨ s.err = 2
  failedErr : s.failed = true ↔ s.err = 2
  outBound : s.outCnt ≤ s.weff
  frameLength : ∀ f ∈ s.out, 2 ≤ f.length ∧ f.length ≤ 126
  started : s.sEof = true ∨ s.out ≠ [] → s.sStarted = true
  unsent : s.fAckUnsent = true → s.mode = .win ∧ s.sEof = true ∧ s.out = []
  overIdle : s.failed = true ∨ s.closed = true → s.tArmed = false
  receiverIdle : s.role = .receiver →
    s.sBase = 0 ∧ s.sNext = 0 ∧ s.out = [] ∧ s.sEof = false ∧ s.sStarted = false ∧ s.tArmed = false ∧
      s.fAckUnsent = false
  senderIdle : s.role = .sender → s.rLast.toNat = s.n - 1 ∧ s.rFirst = true ∧ s.rState = .awaitingFrame

/-- The sender's window (R30 (b), (c), (d)): the next number, the numbers of the stored frames in order, and the final mark on
the last frame exactly when the source has ended. -/
structure WindowInv (s : State) : Prop where
  next : s.sNext.toNat = (s.sBase.toNat + s.outCnt) % s.n
  entries : ∀ i f, s.out[i]? = some f →
    ∃ q eot p, dec s.mode f = .ok q eot p ∧ q.toNat = (s.sBase.toNat + i) % s.n ∧
      (eot = true ↔ s.sEof = true ∧ i + 1 = s.outCnt)

/-- When the timer is armed (R187). -/
structure TimerInv (s : State) : Prop where
  windowed : s.mode = .win → (s.tArmed = true ↔ s.sStarted = true ∧ ¬ (s.out = [] ∧ s.sEof = true))
  single : s.mode = .so → (s.tArmed = true ↔ s.out ≠ [])

/-- The registers of a live session. -/
def State.RegsOk (s : State) : Prop := s.live = true → RegInv s

/-- The registers of a live session and, while `F_ACKUNSENT` is 0, its window (R30). -/
def State.WindowOk (s : State) : Prop := s.live = true → RegInv s ∧ (s.fAckUnsent = false → WindowInv s)

/-- The registers of a live session and, while it runs, its timer (R187). -/
def State.TimerOk (s : State) : Prop := s.live = true → RegInv s ∧ (s.Running → TimerInv s)

/-! ## The source -/

/-- The chunks a sender reads one after the other until a short read ends the source (R69, R152), at most `fuel` of them. -/
def chunksOf : Nat → List (List Byte) → List (List Byte)
  | 0, _ => []
  | fuel + 1, src =>
    let r := readSource Config.chunk src
    if r.1.length < Config.chunk then [r.1] else r.1 :: chunksOf fuel r.2

/-! ## Delivery (R211) -/

/-- The data frame number `k` of a transfer whose chunks are `chunks` (R151, R152). -/
def dataFrame (mode : Mode) (chunks : List (List Byte)) (k : Nat) : Datagram :=
  enc mode (BitVec.ofNat 7 (k % modulus mode)) (chunks.getD k []) (k + 1 = chunks.length)

/-- The chunks are those of a source read by R152: all of 124 bytes but the last, which is shorter. -/
def Chunked (chunks : List (List Byte)) : Prop :=
  chunks ≠ [] ∧ ∀ k p, chunks[k]? = some p → (p.length = 124 ∧ k + 1 < chunks.length) ∨ (p.length < 124 ∧ k + 1 = chunks.length)

/-- After `c` frames were accepted, what may be presented for R211 to hold: nothing valid, or a frame the sender sent in this
session that is neither `N - 1` or more frames behind (R268 (a)) nor beyond a window of at most `N - 1` (R266). -/
def Admissible (mode : Mode) (chunks : List (List Byte)) (c : Nat) (d : Datagram) : Prop :=
  (∃ cause, dec mode d = .corrupt cause) ∨
    ∃ k, k < chunks.length ∧ c < k + modulus mode ∧ k + 1 < c + modulus mode ∧ d = dataFrame mode chunks k

/-- The receiver has accepted the first `c` chunks, and since the session began with `log0` behind it the sink has got exactly
these, in order, each once; it is closed, once, exactly when all are there (R40). No fault bit is set: nothing in a RECEIVER sets it (R42). -/
structure Delivered (chunks : List (List Byte)) (log0 : List PortAct) (c : Nat) (s : State) : Prop where
  receiving : s.Receiving
  intact : s.fAckUnsent = false
  count : c ≤ chunks.length
  written : writes s.log = writes log0 ++ chunks.take c
  closed : closes s.log = closes log0 + (if c = chunks.length then 1 else 0)
  first : s.rFirst = true ↔ c = 0
  cursor : s.rLast.toNat = (c + s.n - 1) % s.n
  complete : s.rState = .complete ↔ c = chunks.length

end Sys2Proof.Machine
end

