-- ==== Sys2Proof/Certificates/Slice0/Obligations.lean ====
section
/-! DEFINITION. The statements about the engine. Each docstring names the rules of spec/ it formalises. -/

open Sys2Proof Sys2Proof.Machine

/-! ## Decoding -/

/-- What is presented and decodes to an instruction runs as that instruction, in the state without the consumed input; the
step adds nothing else. A sub-operation is the exception: it is called only from inside events, so presented by itself it is
refused (R103, R180, R181; that it is a refusal: notes/assumptions/32.md). -/
def Obligations.StepRunsDecodedInstruction : Prop :=
  ∀ (s : State) (t : Txn) (rest : List Txn) (i : Instr), s.inputs = t :: rest → decodeTxn s.mode t = .ok i →
    (i.isSub = false → step s = exec i { s with inputs := rest }) ∧
    (i.isSub = true → step s = .refused .subOperation)

/-- Words written out from R103 (OP byte `{unit, fn}`), R91 and R92 decode to what they stand for: one of each unit, and one
frame of each format. -/
def Obligations.SampleWordsDecode : Prop :=
  decodeTxn .win (.event [0x00#8, 0x00#8, 0x01#8, 0x04#8, 0x64#8]) = .ok (.reset .sender .win 4 100) ∧
  decodeTxn .win (.event [0x01#8]) = .ok .close ∧
  decodeTxn .so (.call [0x10#8, 0x05#8, 0x00#8, 0x68#8, 0x69#8]) = .ok (.cksum [0x05#8, 0x00#8, 0x68#8, 0x69#8]) ∧
  decodeTxn .so (.call [0x22#8, 0x7E#8, 0x04#8, 0x01#8]) = .ok (.inWin 126 4 1) ∧
  decodeTxn .win (.event [0x30#8]) = .ok .sndSend ∧
  decodeTxn .win (.event [0x31#8, 0x00#8, 0xFF#8]) = .ok (.sndAck [0x00#8, 0xFF#8]) ∧
  decodeTxn .win (.event [0x43#8]) = .ok .tmrFire ∧
  decodeTxn .win (.event [0x50#8, 0x01#8, 0x00#8]) = .ok (.rcvFrame [0x00#8] true) ∧
  decodeTxn .win (.rx [0x84#8, 0x71#8, 0x41#8] false) = .ok (.frameW true 4 0x71#8 [0x41#8] false) ∧
  decodeTxn .so (.rx [0x03#8, 0xFC#8] true) = .ok (.frameS 1 1 0xFC#8 [] true)

/-- Decoding the transaction that presents a well-formed instruction gives the instruction back, every operand included (a
frame in the mode of its format). -/
def Obligations.DecodeOfEncode : Prop :=
  ∀ (i : Instr) (mode : Mode), i.WellFormed = true → i.readIn mode = true → decodeTxn mode (encodeTxn i) = .ok i

/-- What decodes is well-formed. -/
def Obligations.DecodedIsWellFormed : Prop :=
  ∀ (mode : Mode) (t : Txn) (i : Instr), decodeTxn mode t = .ok i → i.WellFormed = true

/-- A datagram at the RX port loses no bit: the frame read from it is presented by the same datagram. -/
def Obligations.FrameDecodeLosesNothing : Prop :=
  ∀ (mode : Mode) (d : Datagram) (drop : Bool) (i : Instr), decodeTxn mode (.rx d drop) = .ok i →
    encodeTxn i = .rx d drop

/-- R104: reserved OP values name no operation, at the event port and at the call port; an operation of the other role is
refused (INWIN too: notes/assumptions/9.md), and so is an event whose enabling condition is false. -/
def Obligations.ReservedWrongRoleOrDisabledIsRefused : Prop :=
  (∀ (s : State) (op : Byte) (args : List Byte) (rest : List Txn),
    op.toNat ∉ [0x00, 0x01, 0x02, 0x10, 0x11, 0x12, 0x13, 0x14, 0x20, 0x21, 0x22, 0x30, 0x31, 0x40, 0x41, 0x42, 0x43, 0x50] →
    s.inputs = .event (op :: args) :: rest ∨ s.inputs = .call (op :: args) :: rest →
    step s = .refused (.rejected .reservedOp)) ∧
  (∀ s : State, s.Receiving →
    exec .sndSend s = .refused .wrongRole ∧ exec .tmrStart s = .refused .wrongRole ∧
    exec .tmrCancel s = .refused .wrongRole ∧ exec .tmrTick s = .refused .wrongRole ∧
    exec .tmrFire s = .refused .wrongRole ∧ (∀ d, exec (.sndAck d) s = .refused .wrongRole) ∧
    (∀ b k v, exec (.inWin b k v) s = .refused .wrongRole)) ∧
  (∀ (s : State) (d : Datagram) (drop : Bool), s.Sending → exec (.rcvFrame d drop) s = .refused .wrongRole) ∧
  (∀ s : State, s.Sending →
    (¬ (s.outCnt < s.weff ∧ s.sEof = false) → exec .sndSend s = .refused .notEnabled) ∧
    (¬ (s.tArmed = true ∧ s.tCnt = 0) → exec .tmrFire s = .refused .notEnabled) ∧
    (∀ d : Datagram, d.length ≤ 128 → s.phase ≠ .wait → exec (.sndAck d) s = .refused .notEnabled))

/-! ## Frame Codec -/

/-- R120: CKSUM is `255 - s` for the sum `s`, modulo 256, of all bytes with byte 1 taken as 0; only the result port changes
(the port is the model's: notes/assumptions/5.md). -/
def Obligations.CksumIsComplementOfSum : Prop :=
  ∀ (d : Datagram) (s : State), s.Running → 2 ≤ d.length →
    ∃ b : Byte, exec (.cksum d) s = .next { s with result := .byte b } ∧ b.toNat = 255 - natSum (d.set 1 0) % 256

/-- R121: ENC.W builds a valid frame of `2 + len` bytes whose byte 0 is `128*last + seq` and whose payload is the operand. -/
def Obligations.EncWBuildsFrame : Prop :=
  ∀ (seq : Seq) (payload : List Byte) (last : Bool) (s : State), s.Running → payload.length ≤ 124 →
    ∃ b0 b1 : Byte, exec (.encW seq payload last) s = .next { s with result := .frame (b0 :: b1 :: payload) } ∧
      b0.toNat = (if last then 128 else 0) + seq.toNat ∧ ValidFrame (b0 :: b1 :: payload)

/-- R122: ENC.S builds a valid frame whose byte 0 is the parity; `last` is not encoded. -/
def Obligations.EncSBuildsFrame : Prop :=
  ∀ (seq : Seq) (payload : List Byte) (s : State), s.Running → seq.toNat < 2 → payload.length ≤ 124 →
    ∃ b0 b1 : Byte, (∀ last : Bool,
        exec (.encS seq payload last) s = .next { s with result := .frame (b0 :: b1 :: payload) }) ∧
      b0.toNat = seq.toNat ∧ ValidFrame (b0 :: b1 :: payload)

/-- R123: DEC.W: SHORT below two bytes, CKSUM if the frame is not valid, else the sequence number, the end flag and the
payload; total on 0 to 128 bytes. -/
def Obligations.DecWResult : Prop :=
  ∀ (d : Datagram) (s : State), s.Running → d.length ≤ 128 →
    (d.length < 2 → exec (.decW d) s = .next { s with result := .decoded (.corrupt .short) }) ∧
    (2 ≤ d.length → natSum d % 256 ≠ 255 → exec (.decW d) s = .next { s with result := .decoded (.corrupt .cksum) }) ∧
    (∀ (b0 b1 : Byte) (payload : List Byte), d = b0 :: b1 :: payload → natSum d % 256 = 255 →
      exec (.decW d) s =
        .next { s with result := .decoded (.ok (BitVec.ofNat 7 (b0.toNat % 128)) (128 ≤ b0.toNat) payload) })

/-- R124 with the default SO_EOT_RULE (the spec's default; notes/assumptions/14.md): as DEC.W, with the parity and a
length-derived end flag. -/
def Obligations.DecSResult : Prop :=
  ∀ (d : Datagram) (s : State), s.Running → d.length ≤ 128 →
    (d.length < 2 → exec (.decS d) s = .next { s with result := .decoded (.corrupt .short) }) ∧
    (2 ≤ d.length → natSum d % 256 ≠ 255 → exec (.decS d) s = .next { s with result := .decoded (.corrupt .cksum) }) ∧
    (∀ (b0 b1 : Byte) (payload : List Byte), d = b0 :: b1 :: payload → natSum d % 256 = 255 →
      exec (.decS d) s =
        .next { s with result := .decoded (.ok (BitVec.ofNat 7 (b0.toNat % 2)) (payload.length < 124) payload) })

/-- R126: the round trip of both formats and, the other way, the re-encoding of a valid frame with at most 124 payload
bytes (format S: with the reserved bits 0). -/
def Obligations.CodecRoundTrip : Prop :=
  (∀ (seq : Seq) (payload : List Byte) (last : Bool), payload.length ≤ 124 →
    decodeW (encodeW seq payload last) = .ok seq last payload) ∧
  (∀ (seq : Seq) (payload : List Byte) (last : Bool), seq.toNat < 2 → payload.length ≤ 124 →
    decodeS (encodeS seq payload last) = .ok seq (payload.length < 124) payload) ∧
  (∀ (d : Datagram) (seq : Seq) (eot : Bool) (payload : List Byte), decodeW d = .ok seq eot payload →
    payload.length ≤ 124 → encodeW seq payload eot = d) ∧
  (∀ (d : Datagram) (seq : Seq) (eot last : Bool) (payload : List Byte), decodeS d = .ok seq eot payload →
    payload.length ≤ 124 → (encodeS seq payload last = d ↔ ∀ b0 ∈ d.head?, b0.toNat < 2))

/-- R127: a valid frame changed in exactly one byte is invalid, in both formats. -/
def Obligations.SingleByteChangeIsDetected : Prop :=
  ∀ (d : Datagram) (i : Nat) (b : Byte), ValidFrame d → i < d.length → d[i]? ≠ some b →
    decodeW (d.set i b) = .corrupt .cksum ∧ decodeS (d.set i b) = .corrupt .cksum

/-- R102: a byte sequence of at least two bytes is a valid frame (decodes, in either format) iff its bytes sum to 255
modulo 256. -/
def Obligations.ValidFrameIffSum255 : Prop :=
  ∀ d : Datagram, 2 ≤ d.length →
    ((∃ q e p, decodeW d = .ok q e p) ↔ natSum d % 256 = 255) ∧ ((∃ q e p, decodeS d = .ok q e p) ↔ natSum d % 256 = 255)

/-- R125: the ack of `s` is the two bytes `s`, `255 - s`, in both modes. -/
def Obligations.AckFrameBytes : Prop :=
  ∀ (mode : Mode) (x : Seq), x.toNat < modulus mode →
    ∃ b0 b1 : Byte, encAck mode x = [b0, b1] ∧ b0.toNat = x.toNat ∧ b1.toNat = 255 - x.toNat

/-! ## Sequence and window arithmetic -/

/-- R140: SEQINC is `(x + 1) mod N`. -/
def Obligations.SeqIncResult : Prop :=
  ∀ (x : Seq) (s : State), s.Running → x.toNat < s.n →
    ∃ y : Seq, exec (.seqInc x) s = .next { s with result := .seq y } ∧ y.toNat = (x.toNat + 1) % s.n

/-- R141: SEQOFF is `(v - base) mod N`, with the three laws. -/
def Obligations.SeqOffResult : Prop :=
  ∀ (base v : Seq) (s : State), s.Running → base.toNat < s.n → v.toNat < s.n →
    exec (.seqOff base v) s = .next { s with result := .offset ((v.toNat + s.n - base.toNat) % s.n) } ∧
    seqOff s.n base base = 0 ∧
    seqOff s.n base (seqInc s.n v) = (seqOff s.n base v + 1) % s.n ∧
    (base.toNat + seqOff s.n base v) % s.n = v.toNat

/-- R142, R143: INWIN is membership in `base, base+1, ..., base+size-1` modulo `N`, and equals `SEQOFF < size`. -/
def Obligations.InWinResult : Prop :=
  ∀ (base : Seq) (size : Nat) (v : Seq) (s : State), s.Sending → base.toNat < s.n → size ≤ s.n → v.toNat < s.n →
    ∃ b : Bool, exec (.inWin base size v) s = .next { s with result := .bool b } ∧
      (b = true ↔ ∃ i, i < size ∧ (base.toNat + i) % s.n = v.toNat) ∧
      (b = true ↔ seqOff s.n base v < size)

/-- U20 and the ranges of R121, R122, R140 to R142: outside its domain a function is refused, in either role (that it is a
refusal is the model's reading: notes/assumptions/10.md). R101: so is a datagram of more than 128 bytes, by every operation
that takes one and at the RX port (notes/assumptions/11.md). -/
def Obligations.OperandsOutsideTheirRangeAreRefused : Prop :=
  (∀ s : State, s.Running →
    (∀ d : Datagram, d.length < 2 → exec (.cksum d) s = .refused .outOfDomain) ∧
    (∀ q p l, 124 < p.length → exec (.encW q p l) s = .refused .outOfDomain) ∧
    (∀ q p l, 2 ≤ q.toNat ∨ 124 < p.length → exec (.encS q p l) s = .refused .outOfDomain) ∧
    (∀ x : Seq, s.n ≤ x.toNat → exec (.seqInc x) s = .refused .outOfDomain) ∧
    (∀ b v : Seq, s.n ≤ b.toNat ∨ s.n ≤ v.toNat → exec (.seqOff b v) s = .refused .outOfDomain) ∧
    (∀ d : Datagram, 128 < d.length →
      exec (.decW d) s = .refused .datagramTooLong ∧ exec (.decS d) s = .refused .datagramTooLong)) ∧
  (∀ (s : State) (b : Seq) (k : Nat) (v : Seq), s.Sending → s.n ≤ b.toNat ∨ s.n < k ∨ s.n ≤ v.toNat →
    exec (.inWin b k v) s = .refused .outOfDomain) ∧
  (∀ (s : State) (d : Datagram) (drop : Bool), 128 < d.length →
    (s.Sending → exec (.sndAck d) s = .refused .datagramTooLong) ∧
    (s.Receiving → exec (.rcvFrame d drop) s = .refused .datagramTooLong) ∧
    (∀ rest, s.inputs = .rx d drop :: rest → step s = .refused (.rejected .tooLong)))

/-- R103 (kind F is pure), R129: a function changes nothing but the result port (the model's: notes/assumptions/5.md): no
register, no port transaction, no channel. -/
def Obligations.FunctionsChangeOnlyTheResult : Prop :=
  ∀ (s t : State) (i : Instr),
    (match i with
      | .cksum _ | .encW .. | .encS .. | .decW _ | .decS _ | .seqInc _ | .seqOff .. | .inWin .. => True
      | _ => False) →
    exec i s = .next t → t = { s with result := t.result }

/-! ## Sender -/

/-- R151: SND.SEND in phase FILL: what it reads, the frame it appends and hands to TX, when it starts the timer (R153), the
next number, the end of the source. -/
def Obligations.SndSendResult : Prop :=
  ∀ s : State, s.Sending → s.outCnt < s.weff → s.sEof = false → s.sNext.toNat < s.n →
    ∃ (chunk : List Byte) (src' : List (List Byte)) (next : Seq),
      readSource 124 s.src = (chunk, src') ∧ next.toNat = (s.sNext.toNat + 1) % s.n ∧
      exec .sndSend s = .next { s with
        src := src'
        out := s.out ++ [enc s.mode s.sNext chunk (chunk.length < 124)]
        log := s.log ++ [.tx (enc s.mode s.sNext chunk (chunk.length < 124))]
        chOut := s.chOut ++ [enc s.mode s.sNext chunk (chunk.length < 124)]
        tArmed := if s.mode = .so ∨ s.sStarted = false then true else s.tArmed
        tCnt := if s.mode = .so ∨ s.sStarted = false then s.tRto else s.tCnt
        sStarted := true
        sNext := next
        sEof := chunk.length < 124 }

/-- R69: a read takes the next bytes of the source, at most 124, in order and without loss; a source that is one string
returns fewer only when nothing is left (the source as a list of deliveries: notes/assumptions/15.md). R152: a source of `L`
bytes is read as `L / 124 + 1` chunks, all of 124 bytes but the last of `L % 124`, and nothing is lost. -/
def Obligations.SourceMakesChunks : Prop :=
  (∀ src : List (List Byte),
    (readSource 124 src).1 ++ (readSource 124 src).2.flatten = src.flatten ∧
    (readSource 124 src).1.length ≤ 124 ∧
    (src.length ≤ 1 → (readSource 124 src).1.length < 124 → (readSource 124 src).2.flatten = [])) ∧
  (∀ bytes : List Byte,
    (chunksOf (bytes.length / 124 + 1) [bytes]).flatten = bytes ∧
    (chunksOf (bytes.length / 124 + 1) [bytes]).length = bytes.length / 124 + 1 ∧
    (∀ k, k < bytes.length / 124 → ∃ p, (chunksOf (bytes.length / 124 + 1) [bytes])[k]? = some p ∧ p.length = 124) ∧
    (∃ p, (chunksOf (bytes.length / 124 + 1) [bytes])[bytes.length / 124]? = some p ∧ p.length = bytes.length % 124) ∧
    Chunked (chunksOf (bytes.length / 124 + 1) [bytes]))

/-- R170, R174, R175, R176: an accepted ack. The premises are the enabling condition (phase WAIT) and a valid datagram whose
number is in the window. Where the window is in order, the frames that leave are those whose number is at or before the acked
one as seen from the base (R144, `SEQLE_base` of R106). -/
def Obligations.SndAckAccepted : Prop :=
  ∀ (s : State) (d : Datagram) (a : Seq) (eot : Bool) (p : List Byte) (off : Nat),
    s.Sending → s.phase = .wait → d.length ≤ 128 → dec s.mode d = .ok a eot p →
    off = (a.toNat + s.n - s.sBase.toNat) % s.n → off < s.weff →
    (∃ base : Seq, base.toNat = (a.toNat + 1) % s.n ∧
      exec (.sndAck d) s = .next { s with
        out := s.out.drop (off + 1)
        sBase := base
        fAckUnsent := s.fAckUnsent || decide (s.outCnt < off + 1)
        tArmed := decide (s.mode = .win ∧ ¬ (s.outCnt ≤ off + 1 ∧ s.sEof = true))
        tCnt := if s.mode = .win ∧ ¬ (s.outCnt ≤ off + 1 ∧ s.sEof = true) then s.tRto else 0 }) ∧
    (RegInv s → WindowInv s → ∀ i f q e r, s.out[i]? = some f → dec s.mode f = .ok q e r →
      (i < off + 1 ↔ seqLe s.n s.sBase q a = true))

/-- R172, R173: a corrupt datagram and a valid ack outside the window are consumed and change nothing (in mode WIN R173 is the
spec's own decision D11). -/
def Obligations.SndAckIgnored : Prop :=
  ∀ (s : State) (d : Datagram), s.Sending → s.phase = .wait → d.length ≤ 128 →
    ((∃ c, dec s.mode d = .corrupt c) ∨
      ∃ a eot p, dec s.mode d = .ok a eot p ∧ s.weff ≤ (a.toNat + s.n - s.sBase.toNat) % s.n) →
    exec (.sndAck d) s = .next s

/-- R177, in the states of the invariant of StepKeepsRegisters: after an accepted ack the same number is `N - 1` away from the
base. So with `Weff <= N - 1` it is outside the window and a second copy changes nothing (or, the phase not being WAIT, is not
taken); with `Weff = N` it is in the window, and if taken it is an acknowledgment of everything outstanding. -/
def Obligations.RepeatedAckDoesNotAdvance : Prop :=
  ∀ (s t : State) (d : Datagram) (a : Seq) (eot : Bool) (p : List Byte),
    s.Sending → RegInv s → dec s.mode d = .ok a eot p → seqOff s.n s.sBase a < s.weff → exec (.sndAck d) s = .next t →
    seqOff t.n t.sBase a = t.n - 1 ∧
    (t.weff ≤ t.n - 1 → t.weff ≤ seqOff t.n t.sBase a) ∧ (t.weff = t.n → seqOff t.n t.sBase a < t.weff) ∧
    (t.phase ≠ .wait → exec (.sndAck d) t = .refused .notEnabled) ∧
    (t.phase = .wait →
      (t.weff ≤ t.n - 1 → exec (.sndAck d) t = .next t) ∧
      (t.weff = t.n → ∃ u, exec (.sndAck d) t = .next u ∧ u.out = [] ∧ u.sBase = t.sBase))

/-- R176: an ack of a frame never sent can only be taken in mode WIN after the final frame was sent, and it always leaves the
sender in phase DONE. -/
def Obligations.UnsentAckLeavesDone : Prop :=
  ∀ (s t : State) (d : Datagram), s.Sending → RegInv s → s.fAckUnsent = false → exec (.sndAck d) s = .next t →
    t.fAckUnsent = true → s.mode = .win ∧ s.sEof = true ∧ s.outCnt < s.weff ∧ t.phase = .done ∧ t.outCnt = 0

/-- R266 (a): with `CFG.W = 128` the receiver's repeat of its last in-order number, `S_BASE - 1`, is taken as an
acknowledgment of everything outstanding. -/
def Obligations.Window128LosesTheWindow : Prop :=
  ∀ (s : State) (d : Datagram) (a : Seq) (eot : Bool) (p : List Byte), s.Sending → s.mode = .win → s.w.toNat = 128 →
    s.outCnt ≤ 128 → s.phase = .wait → d.length ≤ 128 → dec s.mode d = .ok a eot p → a = s.sBase - 1 →
    ∃ t, exec (.sndAck d) s = .next t ∧ t.out = [] ∧ t.sBase = s.sBase

/-- What the sender's operations leave unchanged: SND.SEND, SND.ACK and TMR.*. -/
def Obligations.SenderFrame : Prop :=
  ∀ (s t : State),
    (exec .sndSend s = .next t → t = { s with
      src := t.src, out := t.out, log := t.log, chOut := t.chOut, tArmed := t.tArmed, tCnt := t.tCnt,
      sStarted := t.sStarted, sNext := t.sNext, sEof := t.sEof } ∧ s.out <+: t.out) ∧
    (∀ d, exec (.sndAck d) s = .next t → t = { s with
      out := t.out, sBase := t.sBase, fAckUnsent := t.fAckUnsent, tArmed := t.tArmed, tCnt := t.tCnt } ∧ t.out <:+ s.out) ∧
    (∀ i : Instr,
      (match i with
        | .tmrStart | .tmrCancel | .tmrTick | .tmrFire => True
        | _ => False) →
      exec i s = .next t →
      t = { s with tArmed := t.tArmed, tCnt := t.tCnt, log := t.log, chOut := t.chOut } ∧
        (i ≠ .tmrFire → t.log = s.log ∧ t.chOut = s.chOut))

/-- R150: what moves the phase. SND.SEND runs in FILL only and leads to FILL or WAIT, SND.ACK runs in WAIT only and leads to
FILL, WAIT or DONE; CLOSE leads to CLOSED and CH.FAIL to FAILED. -/
def Obligations.PhaseTransitions : Prop :=
  ∀ s t : State, s.Sending →
    (exec .sndSend s = .next t → s.phase = .fill ∧ (t.phase = .fill ∨ t.phase = .wait)) ∧
    (∀ d, exec (.sndAck d) s = .next t → s.phase = .wait ∧ (t.phase = .fill ∨ t.phase = .wait ∨ t.phase = .done)) ∧
    (exec .close s = .next t → t.phase = .closed) ∧ (exec .chFail s = .next t → t.phase = .failed)

/-- R155: in phase DONE the timer is idle, and nothing of the main loop or the timer is enabled but a TMR.TICK without
effect. -/
def Obligations.DoneIsSilent : Prop :=
  ∀ s : State, s.Sending → s.TimerOk → s.phase = .done →
    s.tArmed = false ∧ exec .sndSend s = .refused .notEnabled ∧ exec .tmrFire s = .refused .notEnabled ∧
    exec .tmrTick s = .next s ∧ (∀ d : Datagram, d.length ≤ 128 → exec (.sndAck d) s = .refused .notEnabled)

/-! ## Timer -/

/-- R180: TMR.START arms the timer with the full delay, whatever it was doing (as its callers make it:
notes/assumptions/4.md). -/
def Obligations.TmrStartResult : Prop :=
  ∀ s : State, s.Sending → exec .tmrStart s = .next { s with tArmed := true, tCnt := s.tRto }

/-- R181: TMR.CANCEL clears both registers; cancelling twice is cancelling once, and afterwards TMR.FIRE is refused (as its
callers make it: notes/assumptions/4.md). -/
def Obligations.TmrCancelResult : Prop :=
  ∀ s : State, s.Sending →
    exec .tmrCancel s = .next { s with tArmed := false, tCnt := 0 } ∧
    exec .tmrCancel { s with tArmed := false, tCnt := 0 } = .next { s with tArmed := false, tCnt := 0 } ∧
    exec .tmrFire { s with tArmed := false, tCnt := 0 } = .refused .notEnabled

/-- R182: TMR.TICK counts down while the timer is RUNNING, and has no effect in IDLE and EXPIRED. -/
def Obligations.TmrTickResult : Prop :=
  ∀ s : State, s.Sending →
    exec .tmrTick s = .next { s with tCnt := if s.tArmed = true ∧ 0 < s.tCnt then s.tCnt - 1 else s.tCnt }

/-- R183, R186: TMR.FIRE, enabled iff EXPIRED, hands every frame of OUT to TX, oldest first, and reloads the delay; OUT and
the window registers are untouched. -/
def Obligations.TmrFireResult : Prop :=
  ∀ s : State, s.Sending →
    (s.tArmed = true → s.tCnt = 0 →
      exec .tmrFire s = .next { s with log := s.log ++ s.out.map .tx, chOut := s.chOut ++ s.out, tCnt := s.tRto }) ∧
    (s.tArmed = false ∨ 0 < s.tCnt → exec .tmrFire s = .refused .notEnabled)

/-! ## Receiver -/

/-- R200, R203, R205, R207: RCV.FRAME accepts a frame: written to the sink, cursor moved, acknowledged with its own number, and
for a final frame the sink closed and COMPLETE. -/
def Obligations.RcvFrameAccepted : Prop :=
  ∀ (s : State) (d : Datagram) (q : Seq) (eot : Bool) (p : List Byte), s.Receiving → s.rState = .awaitingFrame →
    d.length ≤ 128 → dec s.mode d = .ok q eot p → s.rLast.toNat < s.n →
    (s.mode = .win → q.toNat = (s.rLast.toNat + 1) % 128) → (s.mode = .so → s.rFirst = true ∨ q ≠ s.rLast) →
    exec (.rcvFrame d false) s = .next { s with
      log := s.log ++ (if eot then [.sinkWrite p, .tx (encAck s.mode q), .sinkClose] else [.sinkWrite p, .tx (encAck s.mode q)])
      chOut := s.chOut ++ [encAck s.mode q]
      rLast := q
      rFirst := false
      rState := if eot then .complete else .awaitingFrame }

/-- R204, R206: any other valid frame is answered with the ack of `R_LAST` and nothing else changes. -/
def Obligations.RcvFrameReacknowledged : Prop :=
  ∀ (s : State) (d : Datagram) (q : Seq) (eot : Bool) (p : List Byte), s.Receiving → s.rState = .awaitingFrame →
    d.length ≤ 128 → dec s.mode d = .ok q eot p → s.rLast.toNat < s.n →
    (s.mode = .win → q.toNat ≠ (s.rLast.toNat + 1) % 128) → (s.mode = .so → s.rFirst = false ∧ q = s.rLast) →
    exec (.rcvFrame d false) s = .next { s with
      log := s.log ++ [.tx (encAck s.mode s.rLast)]
      chOut := s.chOut ++ [encAck s.mode s.rLast] }

/-- R201, R202, R208: dropped by the loss hook, corrupt, or after COMPLETE (the spec's own decision D13): consumed without
effect. -/
def Obligations.RcvFrameIgnored : Prop :=
  ∀ (s : State) (d : Datagram) (drop : Bool), s.Receiving → d.length ≤ 128 →
    drop = true ∨ s.rState = .complete ∨ (∃ c, dec s.mode d = .corrupt c) → exec (.rcvFrame d drop) s = .next s

/-- R209: exactly one ack for every valid datagram not dropped and received before COMPLETE, none for any other, and nothing
else is transmitted. -/
def Obligations.OneAckPerValidFrame : Prop :=
  ∀ (s t : State) (d : Datagram) (drop : Bool), exec (.rcvFrame d drop) s = .next t →
    txs t.log = txs s.log ++
      (if drop = false ∧ s.rState = .awaitingFrame ∧ ValidFrame d then [encAck s.mode t.rLast] else [])

/-- What RCV.FRAME leaves unchanged. -/
def Obligations.ReceiverFrame : Prop :=
  ∀ (s t : State) (d : Datagram) (drop : Bool), exec (.rcvFrame d drop) s = .next t →
    t = { s with log := t.log, chOut := t.chOut, rLast := t.rLast, rFirst := t.rFirst, rState := t.rState } ∧
      s.log <+: t.log ∧ s.chOut <+: t.chOut ∧ (s.rState = .complete → t = s)

/-- R211: whatever admissible datagrams are presented, in whatever order, the sink gets each chunk exactly once and in order:
one RCV.FRAME keeps it so, and goes one chunk further exactly when it is the next one. The receiver has succeeded exactly when
it has them all, and then the sink has got the whole transfer (R40, R43). The premises on what the channel presents are those
of R211 (R266, R268). In mode SO what it says of the end of the transfer (COMPLETE, the closing of the sink, Succeeded) holds for
the default SO_EOT_RULE, which R15 and R124 leave to the model and the model takes (notes/assumptions/14.md). -/
def Obligations.DeliversInOrderExactlyOnce : Prop :=
  ∀ (chunks : List (List Byte)) (log0 : List PortAct) (c : Nat) (s : State) (d : Datagram) (drop : Bool),
    Chunked chunks → Delivered chunks log0 c s → d.length ≤ 128 → Admissible s.mode chunks c d →
    ∃ t, exec (.rcvFrame d drop) s = .next t ∧
      (drop = false ∧ c < chunks.length ∧ d = dataFrame s.mode chunks c → Delivered chunks log0 (c + 1) t) ∧
      (¬ (drop = false ∧ c < chunks.length ∧ d = dataFrame s.mode chunks c) → Delivered chunks log0 c t) ∧
      (t.Succeeded ↔ Delivered chunks log0 chunks.length t) ∧
      (t.Succeeded → sinkContent t.log = sinkContent log0 ++ chunks.flatten)

/-! ## Session -/

/-- R220, R45: RESET with legal parameters, in every state, gives every register its reset value and leaves the ports alone;
with an illegal window size in mode WIN, or without a delay at a SENDER, it is refused. -/
def Obligations.ResetResult : Prop :=
  ∀ (s : State) (role : Role) (mode : Mode) (w trto : Nat),
    ((mode = .win → 1 ≤ w ∧ w ≤ 128) → (role = .sender → 1 ≤ trto) →
      exec (.reset role mode w trto) s = .next
        { live := true, role := role, mode := mode, w := BitVec.ofNat 8 (if mode = .so then 1 else w), tRto := trto
          sBase := 0, sNext := 0, sEof := false, sStarted := false, out := [], tArmed := false, tCnt := 0
          rLast := BitVec.ofNat 7 (if mode = .so then 1 else 127), rFirst := true, rState := .awaitingFrame
          failed := false, err := 0, closed := false, fAckUnsent := false
          src := s.src, log := s.log, chOut := s.chOut, chIn := s.chIn, inputs := s.inputs, result := s.result }) ∧
    ((mode = .win ∧ ¬ (1 ≤ w ∧ w ≤ 128)) ∨ (role = .sender ∧ trto < 1) →
      exec (.reset role mode w trto) s = .refused .illegalParameter)

/-- R221: CLOSE cancels a sender's timer and sets STATUS.CLOSED; OUT keeps its content and the sink is not closed. -/
def Obligations.CloseResult : Prop :=
  ∀ s : State, s.Running →
    exec .close s = .next { s with
      tArmed := if s.role = .sender then false else s.tArmed
      tCnt := if s.role = .sender then 0 else s.tCnt
      closed := true }

/-- R222, R241: CH.FAIL cancels a sender's timer, closes a receiver's sink unless it is already COMPLETE, and records
ChannelClosed: ERR 2 and FAILED. Nothing else is saved or changed. -/
def Obligations.ChFailResult : Prop :=
  ∀ s : State, s.Running →
    exec .chFail s = .next { s with
      tArmed := if s.role = .sender then false else s.tArmed
      tCnt := if s.role = .sender then 0 else s.tCnt
      log := if s.role = .receiver ∧ s.rState ≠ .complete then s.log ++ [.sinkClose] else s.log
      err := 2
      failed := true }

/-- R41, R223, R260: before the first RESET and after CLOSE or CH.FAIL every operation but RESET is refused (the functions
included: notes/assumptions/8.md). -/
def Obligations.OnlyResetLeavesADeadSession : Prop :=
  ∀ (s : State) (i : Instr), ¬ s.Running → i.isFrame = false → (∀ r m w t, i ≠ .reset r m w t) →
    (s.live = false → exec i s = .refused .noSession) ∧ (s.live = true → exec i s = .refused .sessionOver)

/-- R43: the STATUS byte, bit by bit. -/
def Obligations.StatusByteLayout : Prop :=
  ∀ s : State,
    s.status.getLsbD 0 = s.fin ∧ s.status.getLsbD 1 = s.failed ∧ s.status.getLsbD 2 = s.fAckUnsent ∧
    s.status.getLsbD 3 = (decide (s.role = .sender) && s.tArmed) ∧ s.status.extractLsb' 4 3 = s.err ∧
    s.status.getLsbD 7 = s.closed ∧
    (s.fin = true ↔ (s.role = .sender ∧ s.sEof = true ∧ s.outCnt = 0) ∨ (s.role = .receiver ∧ s.rState = .complete))

/-! ## Frames at the RX port -/

/-- R96, R236: a frame at the RX port of a RECEIVER is what RCV.FRAME takes, whatever its format
(notes/assumptions/12.md). -/
def Obligations.FramesReachTheReceiver : Prop :=
  ∀ s : State, s.Receiving →
    (∀ (eot : Bool) (q : Seq) (cks : Byte) (p : List Byte) (drop : Bool), p.length ≤ 126 →
      ∃ (b0 : Byte) (t : State), b0.toNat = (if eot then 128 else 0) + q.toNat ∧
        exec (.frameW eot q cks p drop) s = .next t ∧ exec (.rcvFrame (b0 :: cks :: p) drop) s = .next t) ∧
    (∀ (r : BitVec 7) (q : BitVec 1) (cks : Byte) (p : List Byte) (drop : Bool), p.length ≤ 126 →
      ∃ (b0 : Byte) (t : State), b0.toNat = 2 * r.toNat + q.toNat ∧
        exec (.frameS r q cks p drop) s = .next t ∧ exec (.rcvFrame (b0 :: cks :: p) drop) s = .next t)

/-- R77, R96, R236: a frame at the RX port of a SENDER is what SND.ACK takes in phase WAIT; in FILL and DONE it stays with the
Channel Adapter and nothing else changes (notes/assumptions/12.md). -/
def Obligations.FramesReachTheSender : Prop :=
  ∀ s : State, s.Sending →
    (∀ (eot : Bool) (q : Seq) (cks : Byte) (p : List Byte) (drop : Bool), p.length ≤ 126 →
      ∃ (b0 : Byte) (t : State), b0.toNat = (if eot then 128 else 0) + q.toNat ∧
        exec (.frameW eot q cks p drop) s = .next t ∧
        (s.phase = .wait → exec (.sndAck (b0 :: cks :: p)) s = .next t) ∧
        (s.phase ≠ .wait → t = { s with chIn := s.chIn ++ [b0 :: cks :: p] })) ∧
    (∀ (r : BitVec 7) (q : BitVec 1) (cks : Byte) (p : List Byte) (drop : Bool), p.length ≤ 126 →
      ∃ (b0 : Byte) (t : State), b0.toNat = 2 * r.toNat + q.toNat ∧
        exec (.frameS r q cks p drop) s = .next t ∧
        (s.phase = .wait → exec (.sndAck (b0 :: cks :: p)) s = .next t) ∧
        (s.phase ≠ .wait → t = { s with chIn := s.chIn ++ [b0 :: cks :: p] }))

/-- R262, R237: a frame that arrives before the first RESET is lost; one that arrives after CLOSE or CH.FAIL is not taken and
stays with the Channel Adapter (notes/assumptions/12.md). -/
def Obligations.FramesOutsideASession : Prop :=
  ∀ s : State, ¬ s.Running →
    (∀ (eot : Bool) (q : Seq) (cks : Byte) (p : List Byte) (drop : Bool), p.length ≤ 126 →
      ∃ b0 : Byte, b0.toNat = (if eot then 128 else 0) + q.toNat ∧
        (s.live = false → exec (.frameW eot q cks p drop) s = .next s) ∧
        (s.live = true → exec (.frameW eot q cks p drop) s = .next { s with chIn := s.chIn ++ [b0 :: cks :: p] })) ∧
    (∀ (r : BitVec 7) (q : BitVec 1) (cks : Byte) (p : List Byte) (drop : Bool), p.length ≤ 126 →
      ∃ b0 : Byte, b0.toNat = 2 * r.toNat + q.toNat ∧
        (s.live = false → exec (.frameS r q cks p drop) s = .next s) ∧
        (s.live = true → exec (.frameS r q cks p drop) s = .next { s with chIn := s.chIn ++ [b0 :: cks :: p] }))

/-! ## The channel -/

/-- R72: what the channel's acts do to the datagrams in flight (the form of the channel is the model's: notes/assumptions/17.md).
All but the presenting of one leave every register, the log and the source alone and change one direction only: a datagram
appears at the end, leaves, has one byte changed, is cut, or is doubled; an act on a datagram that is not there is refused. -/
def Obligations.ChannelActsMoveOnlyDatagrams : Prop :=
  ∀ (s : State) (a : ChanAct) (rest : List Txn), s.inputs = .channel a :: rest →
    ((∀ i drop, a ≠ .present i drop) → ∀ t, step s = .next t →
      t = { s with inputs := rest, chIn := t.chIn, chOut := t.chOut }) ∧
    (match a with
      | .appear dir d =>
        ∃ t, step s = .next t ∧ t.flight dir = s.flight dir ++ [d] ∧ ∀ other, other ≠ dir → t.flight other = s.flight other
      | .leave dir i =>
        (∀ d, (s.flight dir)[i]? = some d → ∃ t, step s = .next t ∧ t.flight dir = (s.flight dir).eraseIdx i ∧
          ∀ other, other ≠ dir → t.flight other = s.flight other) ∧
        ((s.flight dir).length ≤ i → step s = .refused .noSuchDatagram)
      | .corrupt dir i offset b =>
        (∀ d, (s.flight dir)[i]? = some d → ∃ t, step s = .next t ∧
          (∀ j, (t.flight dir)[j]? = if j = i then some (d.set offset b) else (s.flight dir)[j]?) ∧
          ∀ other, other ≠ dir → t.flight other = s.flight other) ∧
        ((s.flight dir).length ≤ i → step s = .refused .noSuchDatagram)
      | .shorten dir i n =>
        (∀ d, (s.flight dir)[i]? = some d → ∃ t, step s = .next t ∧
          (∀ j, (t.flight dir)[j]? = if j = i then some (d.take n) else (s.flight dir)[j]?) ∧
          ∀ other, other ≠ dir → t.flight other = s.flight other) ∧
        ((s.flight dir).length ≤ i → step s = .refused .noSuchDatagram)
      | .duplicate dir i =>
        (∀ d, (s.flight dir)[i]? = some d → ∃ t, step s = .next t ∧ t.flight dir = s.flight dir ++ [d] ∧
          ∀ other, other ≠ dir → t.flight other = s.flight other) ∧
        ((s.flight dir).length ≤ i → step s = .refused .noSuchDatagram)
      | .present i _ => s.chIn.length ≤ i → step s = .refused .noSuchDatagram)

/-- R72, R77: presenting the datagram at a position takes exactly that one out of flight and gives it to the RX port. R99,
R172, R202: a datagram of 0 or 1 bytes at the RX port of a RECEIVER, or of a SENDER in WAIT, is consumed without effect; a
SENDER that is not in WAIT does not take it (notes/assumptions/27.md). -/
def Obligations.PresentedDatagramIsTaken : Prop :=
  (∀ (s : State) (i : Nat) (drop : Bool) (rest : List Txn) (d : Datagram),
    s.inputs = .channel (.present i drop) :: rest → s.chIn[i]? = some d →
    step s = step { s with chIn := s.chIn.eraseIdx i, inputs := .rx d drop :: rest }) ∧
  (∀ (s : State) (d : Datagram) (drop : Bool) (rest : List Txn), s.inputs = .rx d drop :: rest → d.length < 2 →
    (s.Receiving ∨ (s.Sending ∧ s.phase = .wait) → step s = .next { s with inputs := rest }) ∧
    (s.Sending ∧ s.phase ≠ .wait → step s = .next { s with inputs := rest, chIn := s.chIn ++ [d] }))

/-- R78: two instances share nothing but the channel (the pair is the model's: notes/assumptions/31.md). A transaction at one
is a step of that one and leaves the other as it is; carrying moves the one datagram at the position from the outgoing flight
of one to the incoming flight of the other and touches nothing else. -/
def Obligations.InstancesShareOnlyTheChannel : Prop :=
  (∀ (n m : Net) (a : NetAct), n.step a = some m →
    match a with
    | .atSender t => step { n.sender with inputs := t :: n.sender.inputs } = .next m.sender ∧ m.receiver = n.receiver
    | .atReceiver t => step { n.receiver with inputs := t :: n.receiver.inputs } = .next m.receiver ∧ m.sender = n.sender
    | .carryData i => ∃ d, n.sender.chOut[i]? = some d ∧
        m.sender = { n.sender with chOut := n.sender.chOut.eraseIdx i } ∧
        m.receiver = { n.receiver with chIn := n.receiver.chIn ++ [d] }
    | .carryAck i => ∃ d, n.receiver.chOut[i]? = some d ∧
        m.receiver = { n.receiver with chOut := n.receiver.chOut.eraseIdx i } ∧
        m.sender = { n.sender with chIn := n.sender.chIn ++ [d] }) ∧
  (∀ (n : Net) (i : Nat), (∃ m, n.step (.carryData i) = some m) ↔ i < n.sender.chOut.length) ∧
  (∀ (n : Net) (i : Nat), (∃ m, n.step (.carryAck i) = some m) ↔ i < n.receiver.chOut.length)

/-! ## The whole machine -/

/-- R22, R23, R25, R30 (a), R31, R34, R37, R41, R176: every step, whatever is presented, keeps the registers of a live
session in their ranges. -/
def Obligations.StepKeepsRegisters : Prop :=
  ∀ s t : State, s.RegsOk → step s = .next t → t.RegsOk

/-- R30: every step, whatever is presented, keeps the window: the next number is the base plus the count, the stored frames
carry consecutive numbers from the base, and only the last one of the source is marked final (in mode SO by the default
SO_EOT_RULE the model takes: notes/assumptions/14.md). -/
def Obligations.StepKeepsWindow : Prop :=
  ∀ s t : State, s.WindowOk → step s = .next t → t.WindowOk

/-- R187: every step, whatever is presented, keeps the timer armed exactly when it must be, so no outstanding frame is ever
left without a retransmission to come. -/
def Obligations.StepKeepsTimer : Prop :=
  ∀ s t : State, s.TimerOk → step s = .next t → t.TimerOk

/-- At reset the registers are in their ranges, the window is in order and the timer is as R187 says (the session
parameters of `State.reset` are the model's choice: notes/assumptions/6.md). -/
def Obligations.ResetStateInOrder : Prop :=
  State.reset.RegsOk ∧ State.reset.WindowOk ∧ State.reset.TimerOk

/-- R233, R234: no step stops with a fault: TimerRaceError is never raised, and no other error stops the engine. -/
def Obligations.NoStepFaults : Prop :=
  ∀ (s : State) (f : Fault), step s ≠ .fault f

/-- R189, R223: after CLOSE or CH.FAIL nothing is handed to TX or to the sink any more, and only RESET starts the timer's
session again: every step leaves the log of the ports as it is, and the session over or newly reset. -/
def Obligations.NothingIsSentAfterTheEnd : Prop :=
  ∀ s t : State, s.live = true → s.failed = true ∨ s.closed = true → step s = .next t →
    t.log = s.log ∧ ((t.failed = s.failed ∧ t.closed = s.closed ∧ t.out = s.out ∧ t.tArmed = s.tArmed) ∨
      (t.failed = false ∧ t.closed = false ∧ t.out = [] ∧ t.tArmed = false))

/-- R24, R41, R42: no operation but RESET writes a CFG field or clears FAILED, CLOSED, ERR or F_ACKUNSENT. -/
def Obligations.OnlyResetReconfigures : Prop :=
  ∀ (s t : State) (i : Instr), (∀ r m w t, i ≠ .reset r m w t) → exec i s = .next t →
    t.role = s.role ∧ t.mode = s.mode ∧ t.w = s.w ∧ t.tRto = s.tRto ∧ t.live = s.live ∧
    (s.failed = true → t.failed = true) ∧ (s.closed = true → t.closed = true) ∧ (s.err ≠ 0 → t.err ≠ 0) ∧
    (s.fAckUnsent = true → t.fAckUnsent = true)

/-- R26, R27, R32, R247: who writes OUT, S_NEXT, S_EOF and the timer. SND.SEND appends one frame, an ack (SND.ACK, or a frame
taken as one) drops from the front, RESET empties; every other operation leaves OUT as it is. Only SND.SEND and RESET write
S_NEXT and S_EOF, and only RESET clears S_EOF. The functions, RCV.FRAME and a frame at a RECEIVER do not touch the timer, and
TMR.TICK and TMR.FIRE do not touch T_ARMED. -/
def Obligations.OwnersOfOutAndTimer : Prop :=
  ∀ (s t : State) (i : Instr), exec i s = .next t →
    (match i with
      | .reset .. => t.out = [] ∧ t.sEof = false
      | .sndSend => (∃ f, t.out = s.out ++ [f]) ∧ (s.sEof = true → t.sEof = true)
      | .sndAck _ | .frameW .. | .frameS .. => t.out <:+ s.out ∧ t.sNext = s.sNext ∧ t.sEof = s.sEof
      | _ => t.out = s.out ∧ t.sNext = s.sNext ∧ t.sEof = s.sEof) ∧
    (match i with
      | .cksum _ | .encW .. | .encS .. | .decW _ | .decS _ | .seqInc _ | .seqOff .. | .inWin .. | .rcvFrame .. =>
        t.tArmed = s.tArmed ∧ t.tCnt = s.tCnt
      | .frameW .. | .frameS .. => s.role = .receiver → t.tArmed = s.tArmed ∧ t.tCnt = s.tCnt
      | .tmrTick | .tmrFire => t.tArmed = s.tArmed
      | _ => True)

/-- R39: nothing but RESET leaves COMPLETE, and nothing but RCV.FRAME (or a frame taken as one) enters it. -/
def Obligations.CompleteIsTerminal : Prop :=
  ∀ (s t : State) (i : Instr), (∀ r m w t, i ≠ .reset r m w t) → exec i s = .next t →
    (s.rState = .complete → t.rState = .complete ∧ t.rLast = s.rLast) ∧
    (t.rState = .complete → s.rState = .complete ∨ i.isFrame = true ∨ ∃ d drop, i = .rcvFrame d drop)
end

