-- ==== Sys2Proof/Laws/Codec.lean ====
section
/-! SUPPORT. The Frame Codec in natural numbers: the byte sum, when a frame is valid, what ENC builds and DEC reads. -/

namespace Sys2Proof.Machine

theorem sumBytes_toNat (d : List Byte) : (sumBytes d).toNat = natSum d % 256 := by
  induction d with
  | nil => rfl
  | cons b bs ih => simp only [sumBytes, natSum, BitVec.toNat_add, ih, Nat.add_mod_mod, Nat.reducePow]

theorem cksum_toNat (d : Datagram) : (cksum d).toNat = 255 - natSum (d.set 1 0) % 256 := by
  have h : (~~~ sumBytes (d.set 1 0)).toNat = 255 - (sumBytes (d.set 1 0)).toNat := by
    rw [BitVec.toNat_not]
  rw [cksum, h, sumBytes_toNat]

/-- The stored checksum is right exactly when all bytes sum to 255 modulo 256 (R102). -/
theorem cksum_eq_iff (b0 b1 : Byte) (p : List Byte) :
    cksum (b0 :: b1 :: p) = b1 ↔ natSum (b0 :: b1 :: p) % 256 = 255 := by
  rw [BitVec.toNat_inj.symm, cksum_toNat]
  simp only [List.set_cons_succ, List.set_cons_zero, natSum]
  have := b1.isLt
  have : (0 : Byte).toNat = 0 := rfl
  omega

/-- A frame assembled by ENC: its byte 0 and payload, and a checksum byte that makes it valid. -/
theorem assemble_eq (b0 : Byte) (p : List Byte) :
    ∃ c : Byte, assemble b0 p = b0 :: c :: p ∧ natSum (b0 :: c :: p) % 256 = 255 := by
  refine ⟨cksum (b0 :: 0 :: p), rfl, ?_⟩
  have h := cksum_toNat (b0 :: 0 :: p)
  simp only [List.set_cons_succ, List.set_cons_zero, natSum] at h ⊢
  have : (0 : Byte).toNat = 0 := rfl
  omega

theorem assemble_length (b0 : Byte) (p : List Byte) : (assemble b0 p).length = p.length + 2 := by
  obtain ⟨c, h, -⟩ := assemble_eq b0 p
  simp [h]

/-- DEC of at least two bytes. -/
theorem decodeWith_cons (read : Byte → List Byte → Decoded) (b0 b1 : Byte) (p : List Byte) :
    decodeWith read (b0 :: b1 :: p) =
      if natSum (b0 :: b1 :: p) % 256 = 255 then read b0 p else .corrupt .cksum := by
  simp only [decodeWith, cksum_eq_iff]

theorem decodeWith_short (read : Byte → List Byte → Decoded) {d : Datagram} (h : d.length < 2) :
    decodeWith read d = .corrupt .short := by
  match d, h with
  | [], _ => rfl
  | [_], _ => rfl

/-- DEC of a frame that ENC assembled reads its byte 0 and its payload. -/
theorem decodeWith_assemble (read : Byte → List Byte → Decoded) (b0 : Byte) (p : List Byte) :
    decodeWith read (assemble b0 p) = read b0 p := by
  obtain ⟨c, h, hv⟩ := assemble_eq b0 p
  rw [h, decodeWith_cons, if_pos hv]

theorem append_toNat {m n : Nat} (a : BitVec m) (b : BitVec n) : (a ++ b).toNat = a.toNat * 2 ^ n + b.toNat := by
  rw [BitVec.toNat_append, ← Nat.shiftLeft_add_eq_or_of_lt b.isLt, Nat.shiftLeft_eq]

theorem ofBool_append_toNat (l : Bool) (q : Seq) :
    (BitVec.ofBool l ++ q : BitVec 8).toNat = (if l then 128 else 0) + q.toNat := by
  have h := append_toNat (BitVec.ofBool l) q
  cases l <;> simp at h ⊢ <;> exact h

theorem frameWHeader_toNat (eot : Bool) (q : Seq) :
    (frameWHeader eot q).toNat = (if eot then 128 else 0) + q.toNat := ofBool_append_toNat eot q

theorem frameSHeader_toNat (r : BitVec 7) (q : BitVec 1) : (frameSHeader r q).toNat = 2 * r.toNat + q.toNat := by
  have h := append_toNat r q
  simp only [frameSHeader]
  omega

/-! ## The fields of byte 0 -/

theorem getLsbD_seven_iff (b : Byte) : b.getLsbD 7 = decide (128 ≤ b.toNat) := by
  have hb := b.isLt
  simp only [BitVec.getLsbD, Nat.testBit, Nat.shiftRight_eq_div_pow, Nat.one_and_eq_mod_two, Nat.reducePow]
  have : b.toNat / 128 = 0 ∨ b.toNat / 128 = 1 := by omega
  rcases this with h | h <;> simp [h] <;> omega

theorem low_seven (b : Byte) : b.extractLsb' 0 7 = BitVec.ofNat 7 (b.toNat % 128) := by
  apply BitVec.eq_of_toNat_eq
  simp [BitVec.extractLsb'_toNat]

theorem low_bit (b : Byte) : (b.extractLsb' 0 1).zeroExtend 7 = BitVec.ofNat 7 (b.toNat % 2) := by
  apply BitVec.eq_of_toNat_eq
  simp [BitVec.extractLsb'_toNat]

/-- DEC.W by cases (R123). -/
theorem decodeW_cons (b0 b1 : Byte) (p : List Byte) :
    decodeW (b0 :: b1 :: p) =
      if natSum (b0 :: b1 :: p) % 256 = 255 then .ok (BitVec.ofNat 7 (b0.toNat % 128)) (128 ≤ b0.toNat) p
      else .corrupt .cksum := by
  simp only [decodeW, decodeWith_cons, low_seven, getLsbD_seven_iff]

/-- DEC.S by cases (R124). -/
theorem decodeS_cons (b0 b1 : Byte) (p : List Byte) :
    decodeS (b0 :: b1 :: p) =
      if natSum (b0 :: b1 :: p) % 256 = 255 then .ok (BitVec.ofNat 7 (b0.toNat % 2)) (p.length < 124) p
      else .corrupt .cksum := by
  simp [decodeS, decodeWith_cons, low_bit, soEotRule, Config.chunk]

theorem decodeW_short {d : Datagram} (h : d.length < 2) : decodeW d = .corrupt .short := decodeWith_short _ h

theorem decodeS_short {d : Datagram} (h : d.length < 2) : decodeS d = .corrupt .short := decodeWith_short _ h

/-- R126, format W, forward. -/
theorem decodeW_encodeW (q : Seq) (p : List Byte) (l : Bool) : decodeW (encodeW q p l) = .ok q l p := by
  have hq := q.isLt
  have hb := ofBool_append_toNat l q
  rw [decodeW, encodeW, decodeWith_assemble, low_seven, getLsbD_seven_iff, hb]
  have hm : BitVec.ofNat 7 (q.toNat % 128) = q := by apply BitVec.eq_of_toNat_eq; simp; exact hq
  cases l
  · simp only [Bool.false_eq_true, if_false, Nat.zero_add, hm, Decoded.ok.injEq, decide_eq_false_iff_not, and_true, true_and]
    omega
  · simp [hm]

/-- R126, format S, forward: the end flag comes from the length. -/
theorem decodeS_encodeS (q : Seq) (p : List Byte) (l : Bool) (hq : q.toNat < 2) :
    decodeS (encodeS q p l) = .ok q (p.length < 124) p := by
  rw [decodeS, encodeS, decodeWith_assemble, low_bit, soEotRule, assemble_length]
  have : BitVec.ofNat 7 ((q.zeroExtend 8).toNat % 2) = q := by
    apply BitVec.eq_of_toNat_eq; simp; omega
  rw [this]
  simp [Config.chunk]

/-- A frame of a session, decoded in its mode: the number, the final mark and the payload that were encoded, provided the
number is below `N` and in mode SO the mark agrees with the length (R152). -/
theorem dec_enc (m : Mode) (q : Seq) (p : List Byte) (hq : q.toNat < modulus m) :
    dec m (enc m q p (p.length < 124)) = .ok q (p.length < 124) p := by
  cases m with
  | so => exact decodeS_encodeS q p (p.length < 124) hq
  | win => exact decodeW_encodeW q p (p.length < 124)

theorem enc_length (m : Mode) (q : Seq) (p : List Byte) (l : Bool) : (enc m q p l).length = p.length + 2 := by
  cases m <;> exact assemble_length _ _

/-- What DEC reads in mode `m` is a number below `N`. -/
theorem dec_seq_lt {m : Mode} {d : Datagram} {q : Seq} {e : Bool} {p : List Byte} (h : dec m d = .ok q e p) :
    q.toNat < modulus m := by
  cases m with
  | win => exact q.isLt
  | so =>
    match d, h with
    | b0 :: b1 :: p', h =>
      simp only [dec, decodeS_cons] at h
      split at h
      · simp only [Decoded.ok.injEq] at h
        rw [← h.1, BitVec.toNat_ofNat]
        simp only [modulus]
        omega
      · cases h

/-- DEC succeeds exactly on valid frames (R102), in either mode. -/
theorem dec_ok_iff (m : Mode) (d : Datagram) : (∃ q e p, dec m d = .ok q e p) ↔ ValidFrame d := by
  match d with
  | [] => cases m <;> simp [dec, decodeW, decodeS, decodeWith, ValidFrame]
  | [_] => cases m <;> simp [dec, decodeW, decodeS, decodeWith, ValidFrame]
  | b0 :: b1 :: p =>
    cases m
    · simp only [dec, decodeS_cons, ValidFrame]
      split <;> simp_all
    · simp only [dec, decodeW_cons, ValidFrame]
      split <;> simp_all

/-- A valid frame is the one ENC assembles from its byte 0 and payload (R126). -/
theorem assemble_self {b0 b1 : Byte} {p : List Byte} (h : natSum (b0 :: b1 :: p) % 256 = 255) :
    assemble b0 p = b0 :: b1 :: p := by
  obtain ⟨c, hc, hv⟩ := assemble_eq b0 p
  have : c = b1 := by
    apply BitVec.eq_of_toNat_eq
    simp only [natSum] at h hv
    omega
  rw [hc, this]

/-- Changing one byte changes the sum by the difference of the two bytes (R127). -/
theorem natSum_set {d : List Byte} {i : Nat} {c : Byte} (b : Byte) (h : d[i]? = some c) :
    natSum (d.set i b) + c.toNat = natSum d + b.toNat := by
  induction d generalizing i with
  | nil => simp at h
  | cons x xs ih =>
    cases i with
    | zero =>
      simp at h
      subst h
      simp [natSum]
      omega
    | succ i =>
      simp at h
      have := ih h
      simp [natSum]
      omega

end Sys2Proof.Machine
end

