-- ==== Sys2Proof/Laws/Decode.lean ====
section
/-! SUPPORT. What each operand decoder does with the bytes the encoder writes, and the fields of byte 0 of a frame. -/

namespace Sys2Proof

theorem decodeBit_byte (b : Bool) : decodeBit (byteOfBool b) = .ok b := by cases b <;> rfl

theorem decodeSeq_byte (q : Seq) : decodeSeq (byteOfSeq q) = .ok q := by
  have hq := q.isLt
  have h : (byteOfSeq q).toNat = q.toNat := by
    unfold byteOfSeq
    simp
    omega
  unfold decodeSeq
  rw [h, if_pos (by omega)]
  congr 1
  apply BitVec.eq_of_toNat_eq
  simp [h]
  omega

theorem roleOfBit_bit (r : Role) : roleOfBit (bitOfRole r) = r := by cases r <;> rfl

theorem modeOfBit_bit (m : Mode) : modeOfBit (bitOfMode m) = m := by cases m <;> rfl

theorem natOfBytes_fuel {f n : Nat} (h : n < f) : natOfBytes (bytesOfNatFuel f n) = n := by
  induction f generalizing n with
  | zero => omega
  | succ f ih =>
    simp only [bytesOfNatFuel, natOfBytes]
    split
    · simp [natOfBytes]
      omega
    · rw [ih (by omega)]
      simp
      omega

theorem decodeTrto_bytes (n : Nat) : decodeTrto (bytesOfNat n) = n := natOfBytes_fuel (n := n) (Nat.lt_succ_self n)

/-- What passes the last check is well-formed and is what was checked. -/
theorem checked_ok {e : DecodeError} {i j : Instr} (h : checked e i = .ok j) : j = i ∧ i.WellFormed = true := by
  unfold checked at h
  split at h
  · cases h
    exact ⟨rfl, ‹_›⟩
  · cases h

/-! ## Byte 0 of a frame -/

open Sys2Proof.Machine

theorem frameWHeader_eot (e : Bool) (q : Seq) : (frameWHeader e q).getLsbD 7 = e := by
  have := q.isLt
  rw [getLsbD_seven_iff, frameWHeader_toNat]
  cases e <;> simp
  omega

theorem frameWHeader_seq (e : Bool) (q : Seq) : (frameWHeader e q).extractLsb' 0 7 = q := by
  have := q.isLt
  rw [low_seven, frameWHeader_toNat]
  apply BitVec.eq_of_toNat_eq
  cases e <;> simp <;> omega

theorem frameWHeader_self (b : Byte) : frameWHeader (b.getLsbD 7) (b.extractLsb' 0 7) = b := by
  apply BitVec.eq_of_toNat_eq
  rw [frameWHeader_toNat, getLsbD_seven_iff, low_seven]
  simp
  split <;> omega

theorem frameSHeader_reserved (r : BitVec 7) (q : BitVec 1) : (frameSHeader r q).extractLsb' 1 7 = r := by
  have := q.isLt
  have := r.isLt
  apply BitVec.eq_of_toNat_eq
  rw [BitVec.extractLsb'_toNat, frameSHeader_toNat, Nat.shiftRight_eq_div_pow]
  omega

theorem frameSHeader_seq (r : BitVec 7) (q : BitVec 1) : (frameSHeader r q).extractLsb' 0 1 = q := by
  have := q.isLt
  apply BitVec.eq_of_toNat_eq
  rw [BitVec.extractLsb'_toNat, frameSHeader_toNat]
  simp
  omega

theorem frameSHeader_self (b : Byte) : frameSHeader (b.extractLsb' 1 7) (b.extractLsb' 0 1) = b := by
  apply BitVec.eq_of_toNat_eq
  rw [frameSHeader_toNat]
  simp [BitVec.extractLsb'_toNat, Nat.shiftRight_eq_div_pow]
  omega

end Sys2Proof
end

