-- ==== Sys2Proof/Laws/Sequence.lean ====
section
/-! SUPPORT. Sequence arithmetic in natural numbers (41_seq_window_arith.md). -/

namespace Sys2Proof.Machine

theorem modulus_le (m : Mode) : 1 < modulus m ∧ modulus m ≤ 128 := by cases m <;> decide

/-- R140. -/
theorem seqInc_toNat {m : Mode} {x : Seq} (h : x.toNat < modulus m) :
    (seqInc (modulus m) x).toNat = (x.toNat + 1) % modulus m := by
  have hm := modulus_le m
  unfold seqInc
  split
  · rename_i e
    rw [e, Nat.sub_add_cancel (by omega), Nat.mod_self]
    rfl
  · rw [BitVec.toNat_add, Nat.mod_eq_of_lt (a := x.toNat + 1) (by omega)]
    have : (1 : Seq).toNat = 1 := rfl
    omega

theorem seqInc_lt {m : Mode} {x : Seq} (h : x.toNat < modulus m) : (seqInc (modulus m) x).toNat < modulus m := by
  rw [seqInc_toNat h]
  exact Nat.mod_lt _ (by have := modulus_le m; omega)

/-- R141: SEQOFF is the difference modulo `N`. -/
theorem seqOff_eq {m : Mode} {b v : Seq} (hv : v.toNat < modulus m) :
    seqOff (modulus m) b v = (v.toNat + modulus m - b.toNat) % modulus m := by
  unfold seqOff
  split
  · rw [show v.toNat + modulus m - b.toNat = v.toNat - b.toNat + modulus m by omega, Nat.add_mod_right,
      Nat.mod_eq_of_lt (by omega)]
  · rw [Nat.mod_eq_of_lt (by omega)]

theorem seqOff_lt {m : Mode} {b v : Seq} (hv : v.toNat < modulus m) :
    seqOff (modulus m) b v < modulus m := by
  rw [seqOff_eq hv]
  exact Nat.mod_lt _ (by omega)

/-- R141: going forward by the distance reaches `v`. -/
theorem add_seqOff {m : Mode} {b v : Seq} (hb : b.toNat < modulus m) (hv : v.toNat < modulus m) :
    (b.toNat + seqOff (modulus m) b v) % modulus m = v.toNat := by
  unfold seqOff
  split
  · rw [show b.toNat + (v.toNat - b.toNat) = v.toNat by omega, Nat.mod_eq_of_lt hv]
  · rw [show b.toNat + (v.toNat + modulus m - b.toNat) = v.toNat + modulus m by omega, Nat.add_mod_right,
      Nat.mod_eq_of_lt hv]

/-- R177: after the base has moved past `a`, a second copy of `a` is `N - 1` away. -/
theorem seqOff_past {m : Mode} {a : Seq} (h : a.toNat < modulus m) :
    seqOff (modulus m) (seqInc (modulus m) a) a = modulus m - 1 := by
  have hm := modulus_le m
  have hi := seqInc_toNat h
  unfold seqOff
  rcases Nat.lt_or_ge (a.toNat + 1) (modulus m) with hl | hl
  · rw [Nat.mod_eq_of_lt hl] at hi
    rw [if_neg (by omega)]
    omega
  · have : a.toNat + 1 = modulus m := by omega
    rw [this, Nat.mod_self] at hi
    rw [hi, if_pos (by omega)]
    omega

/-- The number `i` places past the base is `i` away, and in circular order these numbers stand as their places (R144). -/
theorem seqOff_of_add {m : Mode} {b q : Seq} {i : Nat} (hb : b.toNat < modulus m) (hi : i < modulus m)
    (hq : q.toNat = (b.toNat + i) % modulus m) : seqOff (modulus m) b q = i := by
  unfold seqOff
  rcases Nat.lt_or_ge (b.toNat + i) (modulus m) with h | h
  · rw [Nat.mod_eq_of_lt h] at hq
    rw [if_pos (by omega)]
    omega
  · rw [show b.toNat + i = b.toNat + i - modulus m + modulus m by omega, Nat.add_mod_right,
      Nat.mod_eq_of_lt (by omega)] at hq
    rw [if_neg (by omega)]
    omega

theorem seqLe_iff {n : Nat} {base a b : Seq} : seqLe n base a b = true ↔ seqOff n base a ≤ seqOff n base b := by
  simp [seqLe]

/-- R143: the two linear ranges are `SEQOFF < size`. -/
theorem inWindow_iff {m : Mode} {b v : Seq} {k : Nat} (hb : b.toNat < modulus m)
    (hv : v.toNat < modulus m) : inWindow (modulus m) b k v = true ↔ seqOff (modulus m) b v < k := by
  unfold inWindow seqOff
  split <;> split <;> simp <;> omega

end Sys2Proof.Machine
end

