-- ==== Sys2Proof/Laws/State.lean ====
section
/-! SUPPORT. What each named update of the state does to each field. -/

namespace Sys2Proof.Machine

/-! ## tx -/

@[simp] theorem State.tx_live (s : State) (d : Datagram) : (s.tx d).live = s.live := rfl
@[simp] theorem State.tx_role (s : State) (d : Datagram) : (s.tx d).role = s.role := rfl
@[simp] theorem State.tx_mode (s : State) (d : Datagram) : (s.tx d).mode = s.mode := rfl
@[simp] theorem State.tx_w (s : State) (d : Datagram) : (s.tx d).w = s.w := rfl
@[simp] theorem State.tx_tRto (s : State) (d : Datagram) : (s.tx d).tRto = s.tRto := rfl
@[simp] theorem State.tx_sBase (s : State) (d : Datagram) : (s.tx d).sBase = s.sBase := rfl
@[simp] theorem State.tx_sNext (s : State) (d : Datagram) : (s.tx d).sNext = s.sNext := rfl
@[simp] theorem State.tx_sEof (s : State) (d : Datagram) : (s.tx d).sEof = s.sEof := rfl
@[simp] theorem State.tx_sStarted (s : State) (d : Datagram) : (s.tx d).sStarted = s.sStarted := rfl
@[simp] theorem State.tx_out (s : State) (d : Datagram) : (s.tx d).out = s.out := rfl
@[simp] theorem State.tx_tArmed (s : State) (d : Datagram) : (s.tx d).tArmed = s.tArmed := rfl
@[simp] theorem State.tx_tCnt (s : State) (d : Datagram) : (s.tx d).tCnt = s.tCnt := rfl
@[simp] theorem State.tx_rLast (s : State) (d : Datagram) : (s.tx d).rLast = s.rLast := rfl
@[simp] theorem State.tx_rFirst (s : State) (d : Datagram) : (s.tx d).rFirst = s.rFirst := rfl
@[simp] theorem State.tx_rState (s : State) (d : Datagram) : (s.tx d).rState = s.rState := rfl
@[simp] theorem State.tx_failed (s : State) (d : Datagram) : (s.tx d).failed = s.failed := rfl
@[simp] theorem State.tx_err (s : State) (d : Datagram) : (s.tx d).err = s.err := rfl
@[simp] theorem State.tx_closed (s : State) (d : Datagram) : (s.tx d).closed = s.closed := rfl
@[simp] theorem State.tx_fAckUnsent (s : State) (d : Datagram) : (s.tx d).fAckUnsent = s.fAckUnsent := rfl
@[simp] theorem State.tx_src (s : State) (d : Datagram) : (s.tx d).src = s.src := rfl
@[simp] theorem State.tx_log (s : State) (d : Datagram) : (s.tx d).log = s.log ++ [.tx d] := rfl
@[simp] theorem State.tx_chOut (s : State) (d : Datagram) : (s.tx d).chOut = s.chOut ++ [d] := rfl
@[simp] theorem State.tx_chIn (s : State) (d : Datagram) : (s.tx d).chIn = s.chIn := rfl
@[simp] theorem State.tx_inputs (s : State) (d : Datagram) : (s.tx d).inputs = s.inputs := rfl
@[simp] theorem State.tx_result (s : State) (d : Datagram) : (s.tx d).result = s.result := rfl

/-! ## sinkWrite -/

@[simp] theorem State.sinkWrite_live (s : State) (p : List Byte) : (s.sinkWrite p).live = s.live := rfl
@[simp] theorem State.sinkWrite_role (s : State) (p : List Byte) : (s.sinkWrite p).role = s.role := rfl
@[simp] theorem State.sinkWrite_mode (s : State) (p : List Byte) : (s.sinkWrite p).mode = s.mode := rfl
@[simp] theorem State.sinkWrite_w (s : State) (p : List Byte) : (s.sinkWrite p).w = s.w := rfl
@[simp] theorem State.sinkWrite_tRto (s : State) (p : List Byte) : (s.sinkWrite p).tRto = s.tRto := rfl
@[simp] theorem State.sinkWrite_sBase (s : State) (p : List Byte) : (s.sinkWrite p).sBase = s.sBase := rfl
@[simp] theorem State.sinkWrite_sNext (s : State) (p : List Byte) : (s.sinkWrite p).sNext = s.sNext := rfl
@[simp] theorem State.sinkWrite_sEof (s : State) (p : List Byte) : (s.sinkWrite p).sEof = s.sEof := rfl
@[simp] theorem State.sinkWrite_sStarted (s : State) (p : List Byte) : (s.sinkWrite p).sStarted = s.sStarted := rfl
@[simp] theorem State.sinkWrite_out (s : State) (p : List Byte) : (s.sinkWrite p).out = s.out := rfl
@[simp] theorem State.sinkWrite_tArmed (s : State) (p : List Byte) : (s.sinkWrite p).tArmed = s.tArmed := rfl
@[simp] theorem State.sinkWrite_tCnt (s : State) (p : List Byte) : (s.sinkWrite p).tCnt = s.tCnt := rfl
@[simp] theorem State.sinkWrite_rLast (s : State) (p : List Byte) : (s.sinkWrite p).rLast = s.rLast := rfl
@[simp] theorem State.sinkWrite_rFirst (s : State) (p : List Byte) : (s.sinkWrite p).rFirst = s.rFirst := rfl
@[simp] theorem State.sinkWrite_rState (s : State) (p : List Byte) : (s.sinkWrite p).rState = s.rState := rfl
@[simp] theorem State.sinkWrite_failed (s : State) (p : List Byte) : (s.sinkWrite p).failed = s.failed := rfl
@[simp] theorem State.sinkWrite_err (s : State) (p : List Byte) : (s.sinkWrite p).err = s.err := rfl
@[simp] theorem State.sinkWrite_closed (s : State) (p : List Byte) : (s.sinkWrite p).closed = s.closed := rfl
@[simp] theorem State.sinkWrite_fAckUnsent (s : State) (p : List Byte) : (s.sinkWrite p).fAckUnsent = s.fAckUnsent := rfl
@[simp] theorem State.sinkWrite_src (s : State) (p : List Byte) : (s.sinkWrite p).src = s.src := rfl
@[simp] theorem State.sinkWrite_log (s : State) (p : List Byte) : (s.sinkWrite p).log = s.log ++ [.sinkWrite p] := rfl
@[simp] theorem State.sinkWrite_chOut (s : State) (p : List Byte) : (s.sinkWrite p).chOut = s.chOut := rfl
@[simp] theorem State.sinkWrite_chIn (s : State) (p : List Byte) : (s.sinkWrite p).chIn = s.chIn := rfl
@[simp] theorem State.sinkWrite_inputs (s : State) (p : List Byte) : (s.sinkWrite p).inputs = s.inputs := rfl
@[simp] theorem State.sinkWrite_result (s : State) (p : List Byte) : (s.sinkWrite p).result = s.result := rfl

/-! ## sinkClose -/

@[simp] theorem State.sinkClose_live (s : State) : (s.sinkClose).live = s.live := rfl
@[simp] theorem State.sinkClose_role (s : State) : (s.sinkClose).role = s.role := rfl
@[simp] theorem State.sinkClose_mode (s : State) : (s.sinkClose).mode = s.mode := rfl
@[simp] theorem State.sinkClose_w (s : State) : (s.sinkClose).w = s.w := rfl
@[simp] theorem State.sinkClose_tRto (s : State) : (s.sinkClose).tRto = s.tRto := rfl
@[simp] theorem State.sinkClose_sBase (s : State) : (s.sinkClose).sBase = s.sBase := rfl
@[simp] theorem State.sinkClose_sNext (s : State) : (s.sinkClose).sNext = s.sNext := rfl
@[simp] theorem State.sinkClose_sEof (s : State) : (s.sinkClose).sEof = s.sEof := rfl
@[simp] theorem State.sinkClose_sStarted (s : State) : (s.sinkClose).sStarted = s.sStarted := rfl
@[simp] theorem State.sinkClose_out (s : State) : (s.sinkClose).out = s.out := rfl
@[simp] theorem State.sinkClose_tArmed (s : State) : (s.sinkClose).tArmed = s.tArmed := rfl
@[simp] theorem State.sinkClose_tCnt (s : State) : (s.sinkClose).tCnt = s.tCnt := rfl
@[simp] theorem State.sinkClose_rLast (s : State) : (s.sinkClose).rLast = s.rLast := rfl
@[simp] theorem State.sinkClose_rFirst (s : State) : (s.sinkClose).rFirst = s.rFirst := rfl
@[simp] theorem State.sinkClose_rState (s : State) : (s.sinkClose).rState = s.rState := rfl
@[simp] theorem State.sinkClose_failed (s : State) : (s.sinkClose).failed = s.failed := rfl
@[simp] theorem State.sinkClose_err (s : State) : (s.sinkClose).err = s.err := rfl
@[simp] theorem State.sinkClose_closed (s : State) : (s.sinkClose).closed = s.closed := rfl
@[simp] theorem State.sinkClose_fAckUnsent (s : State) : (s.sinkClose).fAckUnsent = s.fAckUnsent := rfl
@[simp] theorem State.sinkClose_src (s : State) : (s.sinkClose).src = s.src := rfl
@[simp] theorem State.sinkClose_log (s : State) : (s.sinkClose).log = s.log ++ [.sinkClose] := rfl
@[simp] theorem State.sinkClose_chOut (s : State) : (s.sinkClose).chOut = s.chOut := rfl
@[simp] theorem State.sinkClose_chIn (s : State) : (s.sinkClose).chIn = s.chIn := rfl
@[simp] theorem State.sinkClose_inputs (s : State) : (s.sinkClose).inputs = s.inputs := rfl
@[simp] theorem State.sinkClose_result (s : State) : (s.sinkClose).result = s.result := rfl

/-! ## outAppend -/

@[simp] theorem State.outAppend_live (s : State) (f : Datagram) : (s.outAppend f).live = s.live := rfl
@[simp] theorem State.outAppend_role (s : State) (f : Datagram) : (s.outAppend f).role = s.role := rfl
@[simp] theorem State.outAppend_mode (s : State) (f : Datagram) : (s.outAppend f).mode = s.mode := rfl
@[simp] theorem State.outAppend_w (s : State) (f : Datagram) : (s.outAppend f).w = s.w := rfl
@[simp] theorem State.outAppend_tRto (s : State) (f : Datagram) : (s.outAppend f).tRto = s.tRto := rfl
@[simp] theorem State.outAppend_sBase (s : State) (f : Datagram) : (s.outAppend f).sBase = s.sBase := rfl
@[simp] theorem State.outAppend_sNext (s : State) (f : Datagram) : (s.outAppend f).sNext = s.sNext := rfl
@[simp] theorem State.outAppend_sEof (s : State) (f : Datagram) : (s.outAppend f).sEof = s.sEof := rfl
@[simp] theorem State.outAppend_sStarted (s : State) (f : Datagram) : (s.outAppend f).sStarted = s.sStarted := rfl
@[simp] theorem State.outAppend_out (s : State) (f : Datagram) : (s.outAppend f).out = s.out ++ [f] := rfl
@[simp] theorem State.outAppend_tArmed (s : State) (f : Datagram) : (s.outAppend f).tArmed = s.tArmed := rfl
@[simp] theorem State.outAppend_tCnt (s : State) (f : Datagram) : (s.outAppend f).tCnt = s.tCnt := rfl
@[simp] theorem State.outAppend_rLast (s : State) (f : Datagram) : (s.outAppend f).rLast = s.rLast := rfl
@[simp] theorem State.outAppend_rFirst (s : State) (f : Datagram) : (s.outAppend f).rFirst = s.rFirst := rfl
@[simp] theorem State.outAppend_rState (s : State) (f : Datagram) : (s.outAppend f).rState = s.rState := rfl
@[simp] theorem State.outAppend_failed (s : State) (f : Datagram) : (s.outAppend f).failed = s.failed := rfl
@[simp] theorem State.outAppend_err (s : State) (f : Datagram) : (s.outAppend f).err = s.err := rfl
@[simp] theorem State.outAppend_closed (s : State) (f : Datagram) : (s.outAppend f).closed = s.closed := rfl
@[simp] theorem State.outAppend_fAckUnsent (s : State) (f : Datagram) : (s.outAppend f).fAckUnsent = s.fAckUnsent := rfl
@[simp] theorem State.outAppend_src (s : State) (f : Datagram) : (s.outAppend f).src = s.src := rfl
@[simp] theorem State.outAppend_log (s : State) (f : Datagram) : (s.outAppend f).log = s.log := rfl
@[simp] theorem State.outAppend_chOut (s : State) (f : Datagram) : (s.outAppend f).chOut = s.chOut := rfl
@[simp] theorem State.outAppend_chIn (s : State) (f : Datagram) : (s.outAppend f).chIn = s.chIn := rfl
@[simp] theorem State.outAppend_inputs (s : State) (f : Datagram) : (s.outAppend f).inputs = s.inputs := rfl
@[simp] theorem State.outAppend_result (s : State) (f : Datagram) : (s.outAppend f).result = s.result := rfl

/-! ## outDropFront -/

@[simp] theorem State.outDropFront_live (s : State) (k : Nat) : (s.outDropFront k).live = s.live := rfl
@[simp] theorem State.outDropFront_role (s : State) (k : Nat) : (s.outDropFront k).role = s.role := rfl
@[simp] theorem State.outDropFront_mode (s : State) (k : Nat) : (s.outDropFront k).mode = s.mode := rfl
@[simp] theorem State.outDropFront_w (s : State) (k : Nat) : (s.outDropFront k).w = s.w := rfl
@[simp] theorem State.outDropFront_tRto (s : State) (k : Nat) : (s.outDropFront k).tRto = s.tRto := rfl
@[simp] theorem State.outDropFront_sBase (s : State) (k : Nat) : (s.outDropFront k).sBase = s.sBase := rfl
@[simp] theorem State.outDropFront_sNext (s : State) (k : Nat) : (s.outDropFront k).sNext = s.sNext := rfl
@[simp] theorem State.outDropFront_sEof (s : State) (k : Nat) : (s.outDropFront k).sEof = s.sEof := rfl
@[simp] theorem State.outDropFront_sStarted (s : State) (k : Nat) : (s.outDropFront k).sStarted = s.sStarted := rfl
@[simp] theorem State.outDropFront_out (s : State) (k : Nat) : (s.outDropFront k).out = s.out.drop k := rfl
@[simp] theorem State.outDropFront_tArmed (s : State) (k : Nat) : (s.outDropFront k).tArmed = s.tArmed := rfl
@[simp] theorem State.outDropFront_tCnt (s : State) (k : Nat) : (s.outDropFront k).tCnt = s.tCnt := rfl
@[simp] theorem State.outDropFront_rLast (s : State) (k : Nat) : (s.outDropFront k).rLast = s.rLast := rfl
@[simp] theorem State.outDropFront_rFirst (s : State) (k : Nat) : (s.outDropFront k).rFirst = s.rFirst := rfl
@[simp] theorem State.outDropFront_rState (s : State) (k : Nat) : (s.outDropFront k).rState = s.rState := rfl
@[simp] theorem State.outDropFront_failed (s : State) (k : Nat) : (s.outDropFront k).failed = s.failed := rfl
@[simp] theorem State.outDropFront_err (s : State) (k : Nat) : (s.outDropFront k).err = s.err := rfl
@[simp] theorem State.outDropFront_closed (s : State) (k : Nat) : (s.outDropFront k).closed = s.closed := rfl
@[simp] theorem State.outDropFront_fAckUnsent (s : State) (k : Nat) : (s.outDropFront k).fAckUnsent = s.fAckUnsent := rfl
@[simp] theorem State.outDropFront_src (s : State) (k : Nat) : (s.outDropFront k).src = s.src := rfl
@[simp] theorem State.outDropFront_log (s : State) (k : Nat) : (s.outDropFront k).log = s.log := rfl
@[simp] theorem State.outDropFront_chOut (s : State) (k : Nat) : (s.outDropFront k).chOut = s.chOut := rfl
@[simp] theorem State.outDropFront_chIn (s : State) (k : Nat) : (s.outDropFront k).chIn = s.chIn := rfl
@[simp] theorem State.outDropFront_inputs (s : State) (k : Nat) : (s.outDropFront k).inputs = s.inputs := rfl
@[simp] theorem State.outDropFront_result (s : State) (k : Nat) : (s.outDropFront k).result = s.result := rfl

/-! ## timerStart -/

@[simp] theorem State.timerStart_live (s : State) : (s.timerStart).live = s.live := rfl
@[simp] theorem State.timerStart_role (s : State) : (s.timerStart).role = s.role := rfl
@[simp] theorem State.timerStart_mode (s : State) : (s.timerStart).mode = s.mode := rfl
@[simp] theorem State.timerStart_w (s : State) : (s.timerStart).w = s.w := rfl
@[simp] theorem State.timerStart_tRto (s : State) : (s.timerStart).tRto = s.tRto := rfl
@[simp] theorem State.timerStart_sBase (s : State) : (s.timerStart).sBase = s.sBase := rfl
@[simp] theorem State.timerStart_sNext (s : State) : (s.timerStart).sNext = s.sNext := rfl
@[simp] theorem State.timerStart_sEof (s : State) : (s.timerStart).sEof = s.sEof := rfl
@[simp] theorem State.timerStart_sStarted (s : State) : (s.timerStart).sStarted = s.sStarted := rfl
@[simp] theorem State.timerStart_out (s : State) : (s.timerStart).out = s.out := rfl
@[simp] theorem State.timerStart_tArmed (s : State) : (s.timerStart).tArmed = true := rfl
@[simp] theorem State.timerStart_tCnt (s : State) : (s.timerStart).tCnt = s.tRto := rfl
@[simp] theorem State.timerStart_rLast (s : State) : (s.timerStart).rLast = s.rLast := rfl
@[simp] theorem State.timerStart_rFirst (s : State) : (s.timerStart).rFirst = s.rFirst := rfl
@[simp] theorem State.timerStart_rState (s : State) : (s.timerStart).rState = s.rState := rfl
@[simp] theorem State.timerStart_failed (s : State) : (s.timerStart).failed = s.failed := rfl
@[simp] theorem State.timerStart_err (s : State) : (s.timerStart).err = s.err := rfl
@[simp] theorem State.timerStart_closed (s : State) : (s.timerStart).closed = s.closed := rfl
@[simp] theorem State.timerStart_fAckUnsent (s : State) : (s.timerStart).fAckUnsent = s.fAckUnsent := rfl
@[simp] theorem State.timerStart_src (s : State) : (s.timerStart).src = s.src := rfl
@[simp] theorem State.timerStart_log (s : State) : (s.timerStart).log = s.log := rfl
@[simp] theorem State.timerStart_chOut (s : State) : (s.timerStart).chOut = s.chOut := rfl
@[simp] theorem State.timerStart_chIn (s : State) : (s.timerStart).chIn = s.chIn := rfl
@[simp] theorem State.timerStart_inputs (s : State) : (s.timerStart).inputs = s.inputs := rfl
@[simp] theorem State.timerStart_result (s : State) : (s.timerStart).result = s.result := rfl

/-! ## timerCancel -/

@[simp] theorem State.timerCancel_live (s : State) : (s.timerCancel).live = s.live := rfl
@[simp] theorem State.timerCancel_role (s : State) : (s.timerCancel).role = s.role := rfl
@[simp] theorem State.timerCancel_mode (s : State) : (s.timerCancel).mode = s.mode := rfl
@[simp] theorem State.timerCancel_w (s : State) : (s.timerCancel).w = s.w := rfl
@[simp] theorem State.timerCancel_tRto (s : State) : (s.timerCancel).tRto = s.tRto := rfl
@[simp] theorem State.timerCancel_sBase (s : State) : (s.timerCancel).sBase = s.sBase := rfl
@[simp] theorem State.timerCancel_sNext (s : State) : (s.timerCancel).sNext = s.sNext := rfl
@[simp] theorem State.timerCancel_sEof (s : State) : (s.timerCancel).sEof = s.sEof := rfl
@[simp] theorem State.timerCancel_sStarted (s : State) : (s.timerCancel).sStarted = s.sStarted := rfl
@[simp] theorem State.timerCancel_out (s : State) : (s.timerCancel).out = s.out := rfl
@[simp] theorem State.timerCancel_tArmed (s : State) : (s.timerCancel).tArmed = false := rfl
@[simp] theorem State.timerCancel_tCnt (s : State) : (s.timerCancel).tCnt = 0 := rfl
@[simp] theorem State.timerCancel_rLast (s : State) : (s.timerCancel).rLast = s.rLast := rfl
@[simp] theorem State.timerCancel_rFirst (s : State) : (s.timerCancel).rFirst = s.rFirst := rfl
@[simp] theorem State.timerCancel_rState (s : State) : (s.timerCancel).rState = s.rState := rfl
@[simp] theorem State.timerCancel_failed (s : State) : (s.timerCancel).failed = s.failed := rfl
@[simp] theorem State.timerCancel_err (s : State) : (s.timerCancel).err = s.err := rfl
@[simp] theorem State.timerCancel_closed (s : State) : (s.timerCancel).closed = s.closed := rfl
@[simp] theorem State.timerCancel_fAckUnsent (s : State) : (s.timerCancel).fAckUnsent = s.fAckUnsent := rfl
@[simp] theorem State.timerCancel_src (s : State) : (s.timerCancel).src = s.src := rfl
@[simp] theorem State.timerCancel_log (s : State) : (s.timerCancel).log = s.log := rfl
@[simp] theorem State.timerCancel_chOut (s : State) : (s.timerCancel).chOut = s.chOut := rfl
@[simp] theorem State.timerCancel_chIn (s : State) : (s.timerCancel).chIn = s.chIn := rfl
@[simp] theorem State.timerCancel_inputs (s : State) : (s.timerCancel).inputs = s.inputs := rfl
@[simp] theorem State.timerCancel_result (s : State) : (s.timerCancel).result = s.result := rfl

/-! ## returning -/

@[simp] theorem State.returning_live (s : State) (r : FnResult) : (s.returning r).live = s.live := rfl
@[simp] theorem State.returning_role (s : State) (r : FnResult) : (s.returning r).role = s.role := rfl
@[simp] theorem State.returning_mode (s : State) (r : FnResult) : (s.returning r).mode = s.mode := rfl
@[simp] theorem State.returning_w (s : State) (r : FnResult) : (s.returning r).w = s.w := rfl
@[simp] theorem State.returning_tRto (s : State) (r : FnResult) : (s.returning r).tRto = s.tRto := rfl
@[simp] theorem State.returning_sBase (s : State) (r : FnResult) : (s.returning r).sBase = s.sBase := rfl
@[simp] theorem State.returning_sNext (s : State) (r : FnResult) : (s.returning r).sNext = s.sNext := rfl
@[simp] theorem State.returning_sEof (s : State) (r : FnResult) : (s.returning r).sEof = s.sEof := rfl
@[simp] theorem State.returning_sStarted (s : State) (r : FnResult) : (s.returning r).sStarted = s.sStarted := rfl
@[simp] theorem State.returning_out (s : State) (r : FnResult) : (s.returning r).out = s.out := rfl
@[simp] theorem State.returning_tArmed (s : State) (r : FnResult) : (s.returning r).tArmed = s.tArmed := rfl
@[simp] theorem State.returning_tCnt (s : State) (r : FnResult) : (s.returning r).tCnt = s.tCnt := rfl
@[simp] theorem State.returning_rLast (s : State) (r : FnResult) : (s.returning r).rLast = s.rLast := rfl
@[simp] theorem State.returning_rFirst (s : State) (r : FnResult) : (s.returning r).rFirst = s.rFirst := rfl
@[simp] theorem State.returning_rState (s : State) (r : FnResult) : (s.returning r).rState = s.rState := rfl
@[simp] theorem State.returning_failed (s : State) (r : FnResult) : (s.returning r).failed = s.failed := rfl
@[simp] theorem State.returning_err (s : State) (r : FnResult) : (s.returning r).err = s.err := rfl
@[simp] theorem State.returning_closed (s : State) (r : FnResult) : (s.returning r).closed = s.closed := rfl
@[simp] theorem State.returning_fAckUnsent (s : State) (r : FnResult) : (s.returning r).fAckUnsent = s.fAckUnsent := rfl
@[simp] theorem State.returning_src (s : State) (r : FnResult) : (s.returning r).src = s.src := rfl
@[simp] theorem State.returning_log (s : State) (r : FnResult) : (s.returning r).log = s.log := rfl
@[simp] theorem State.returning_chOut (s : State) (r : FnResult) : (s.returning r).chOut = s.chOut := rfl
@[simp] theorem State.returning_chIn (s : State) (r : FnResult) : (s.returning r).chIn = s.chIn := rfl
@[simp] theorem State.returning_inputs (s : State) (r : FnResult) : (s.returning r).inputs = s.inputs := rfl
@[simp] theorem State.returning_result (s : State) (r : FnResult) : (s.returning r).result = r := rfl

/-! ## newSession -/

@[simp] theorem State.newSession_live (s : State) (r : Role) (m : Mode) (w t : Nat) :
    (s.newSession r m w t).live = true := rfl
@[simp] theorem State.newSession_role (s : State) (r : Role) (m : Mode) (w t : Nat) :
    (s.newSession r m w t).role = r := rfl
@[simp] theorem State.newSession_mode (s : State) (r : Role) (m : Mode) (w t : Nat) :
    (s.newSession r m w t).mode = m := rfl
@[simp] theorem State.newSession_w (s : State) (r : Role) (m : Mode) (w t : Nat) :
    (s.newSession r m w t).w = BitVec.ofNat 8 (match m with | .so => 1 | .win => w) := rfl
@[simp] theorem State.newSession_tRto (s : State) (r : Role) (m : Mode) (w t : Nat) :
    (s.newSession r m w t).tRto = t := rfl
@[simp] theorem State.newSession_sBase (s : State) (r : Role) (m : Mode) (w t : Nat) :
    (s.newSession r m w t).sBase = 0 := rfl
@[simp] theorem State.newSession_sNext (s : State) (r : Role) (m : Mode) (w t : Nat) :
    (s.newSession r m w t).sNext = 0 := rfl
@[simp] theorem State.newSession_sEof (s : State) (r : Role) (m : Mode) (w t : Nat) :
    (s.newSession r m w t).sEof = false := rfl
@[simp] theorem State.newSession_sStarted (s : State) (r : Role) (m : Mode) (w t : Nat) :
    (s.newSession r m w t).sStarted = false := rfl
@[simp] theorem State.newSession_out (s : State) (r : Role) (m : Mode) (w t : Nat) :
    (s.newSession r m w t).out = [] := rfl
@[simp] theorem State.newSession_tArmed (s : State) (r : Role) (m : Mode) (w t : Nat) :
    (s.newSession r m w t).tArmed = false := rfl
@[simp] theorem State.newSession_tCnt (s : State) (r : Role) (m : Mode) (w t : Nat) :
    (s.newSession r m w t).tCnt = 0 := rfl
@[simp] theorem State.newSession_rLast (s : State) (r : Role) (m : Mode) (w t : Nat) :
    (s.newSession r m w t).rLast = BitVec.ofNat 7 (modulus m - 1) := rfl
@[simp] theorem State.newSession_rFirst (s : State) (r : Role) (m : Mode) (w t : Nat) :
    (s.newSession r m w t).rFirst = true := rfl
@[simp] theorem State.newSession_rState (s : State) (r : Role) (m : Mode) (w t : Nat) :
    (s.newSession r m w t).rState = .awaitingFrame := rfl
@[simp] theorem State.newSession_failed (s : State) (r : Role) (m : Mode) (w t : Nat) :
    (s.newSession r m w t).failed = false := rfl
@[simp] theorem State.newSession_err (s : State) (r : Role) (m : Mode) (w t : Nat) :
    (s.newSession r m w t).err = 0 := rfl
@[simp] theorem State.newSession_closed (s : State) (r : Role) (m : Mode) (w t : Nat) :
    (s.newSession r m w t).closed = false := rfl
@[simp] theorem State.newSession_fAckUnsent (s : State) (r : Role) (m : Mode) (w t : Nat) :
    (s.newSession r m w t).fAckUnsent = false := rfl
@[simp] theorem State.newSession_src (s : State) (r : Role) (m : Mode) (w t : Nat) :
    (s.newSession r m w t).src = s.src := rfl
@[simp] theorem State.newSession_log (s : State) (r : Role) (m : Mode) (w t : Nat) :
    (s.newSession r m w t).log = s.log := rfl
@[simp] theorem State.newSession_chOut (s : State) (r : Role) (m : Mode) (w t : Nat) :
    (s.newSession r m w t).chOut = s.chOut := rfl
@[simp] theorem State.newSession_chIn (s : State) (r : Role) (m : Mode) (w t : Nat) :
    (s.newSession r m w t).chIn = s.chIn := rfl
@[simp] theorem State.newSession_inputs (s : State) (r : Role) (m : Mode) (w t : Nat) :
    (s.newSession r m w t).inputs = s.inputs := rfl
@[simp] theorem State.newSession_result (s : State) (r : Role) (m : Mode) (w t : Nat) :
    (s.newSession r m w t).result = s.result := rfl

end Sys2Proof.Machine
end

