-- ==== Sys2Proof/Laws/Ops.lean ====
section
/-! SUPPORT. What each shared operation can do, once: the gates, TX of a list, the two operations that consume a datagram,
the arrival of a frame, a session's start and end. -/

namespace Sys2Proof.Machine

/-! ## Gates -/

@[simp] theorem whenLive_next {s t : State} {k : Out} : whenLive s k = .next t ↔ s.Running ∧ k = .next t := by
  unfold whenLive State.Running
  cases s.live <;> cases s.failed <;> cases s.closed <;> simp

@[simp] theorem whenRole_next {s t : State} {r : Role} {k : Out} :
    whenRole s r k = .next t ↔ s.role = r ∧ k = .next t := by
  unfold whenRole
  split <;> simp_all

@[simp] theorem whenEnabled_next {t : State} {c : Bool} {k : Out} :
    whenEnabled c k = .next t ↔ c = true ∧ k = .next t := by
  unfold whenEnabled
  split <;> simp_all

@[simp] theorem whenDomain_next {t : State} {c : Bool} {k : Out} :
    whenDomain c k = .next t ↔ c = true ∧ k = .next t := by
  unfold whenDomain
  split <;> simp_all

@[simp] theorem whenPresentable_next {t : State} {d : Datagram} {k : Out} :
    whenPresentable d k = .next t ↔ d.length ≤ 128 ∧ k = .next t := by
  unfold whenPresentable Config.maxDgram
  split <;> simp_all

theorem whenLive_running {s : State} (h : s.Running) (k : Out) : whenLive s k = k := by
  obtain ⟨h1, h2, h3⟩ := h
  simp [whenLive, h1, h2, h3]

theorem whenRole_same {s : State} {r : Role} (h : s.role = r) (k : Out) : whenRole s r k = k := if_pos h

theorem whenRole_other {s : State} {r : Role} (h : s.role ≠ r) (k : Out) : whenRole s r k = .refused .wrongRole := if_neg h

theorem whenEnabled_true {c : Bool} (h : c = true) (k : Out) : whenEnabled c k = k := if_pos h

theorem whenEnabled_false {c : Bool} (h : c = false) (k : Out) : whenEnabled c k = .refused .notEnabled := by
  simp [whenEnabled, h]

theorem whenDomain_true {c : Bool} (h : c = true) (k : Out) : whenDomain c k = k := if_pos h

theorem whenDomain_false {c : Bool} (h : c = false) (k : Out) : whenDomain c k = .refused .outOfDomain := by
  simp [whenDomain, h]

theorem whenPresentable_short {d : Datagram} (h : d.length ≤ 128) (k : Out) : whenPresentable d k = k := if_pos h

theorem whenPresentable_long {d : Datagram} (h : 128 < d.length) (k : Out) :
    whenPresentable d k = .refused .datagramTooLong := if_neg (by simp only [Config.maxDgram]; omega)

/-- No gate makes a fault (R233). -/
theorem gate_not_fault {k : Out} {f : Fault} (hk : k ≠ .fault f) (s : State) (r : Role) (c : Bool) (d : Datagram) :
    whenLive s k ≠ .fault f ∧ whenRole s r k ≠ .fault f ∧ whenEnabled c k ≠ .fault f ∧ whenDomain c k ≠ .fault f ∧
      whenPresentable d k ≠ .fault f := by
  unfold whenLive whenRole whenEnabled whenDomain whenPresentable
  refine ⟨?_, ?_, ?_, ?_, ?_⟩ <;> (repeat' split) <;> first | exact hk | simp

/-! ## Ports -/

/-- TX of a list hands over its datagrams in order and touches nothing else (R71). -/
theorem State.txAll_eq (s : State) (ds : List Datagram) :
    s.txAll ds = { s with log := s.log ++ ds.map .tx, chOut := s.chOut ++ ds } := by
  induction ds generalizing s with
  | nil => simp [State.txAll]
  | cons d ds ih => simp [State.txAll, ih, State.tx]

/-- A source read takes a prefix of what is left, at most `n` bytes (R69). -/
theorem readSource_append (n : Nat) (src : List (List Byte)) :
    (readSource n src).1 ++ (readSource n src).2.flatten = src.flatten ∧ (readSource n src).1.length ≤ n := by
  cases src with
  | nil => simp [readSource]
  | cons seg rest =>
    by_cases h : seg.length ≤ n
    · simp [readSource, h]
    · simp only [readSource, h, if_false, List.flatten_cons, ← List.append_assoc, List.take_append_drop, true_and,
        List.length_take]
      omega

/-! ## Phases -/

theorem canAck_iff {s : State} : s.canAck = true ↔ s.phase = .wait := by
  simp [State.canAck]

theorem phase_fill_iff {s : State} (h : s.Running) : s.phase = .fill ↔ s.outCnt < s.weff ∧ s.sEof = false := by
  obtain ⟨-, h2, h3⟩ := h
  unfold State.phase
  rw [h2, h3]
  cases s.sEof <;> by_cases h6 : s.outCnt < s.weff <;> simp [h6] <;> split <;> simp_all

theorem phase_done_iff {s : State} (h : s.Running) : s.phase = .done ↔ s.sEof = true ∧ s.out = [] := by
  obtain ⟨-, h2, h3⟩ := h
  have : s.out = [] ↔ s.outCnt = 0 := by simp [State.outCnt]
  rw [this]
  unfold State.phase
  rw [h2, h3]
  cases s.sEof <;> by_cases h5 : s.outCnt = 0 <;> simp [h5]
  all_goals split <;> simp

theorem phase_wait_iff {s : State} (h : s.Running) :
    s.phase = .wait ↔ (s.sEof = true ∧ s.out ≠ []) ∨ (s.sEof = false ∧ s.weff ≤ s.outCnt) := by
  obtain ⟨-, h2, h3⟩ := h
  have : s.out = [] ↔ s.outCnt = 0 := by simp [State.outCnt]
  rw [Ne, this]
  unfold State.phase
  rw [h2, h3]
  cases s.sEof <;> by_cases h5 : s.outCnt = 0 <;> simp [h5]

/-! ## SND.ACK -/

/-- An accepted ack, all fields at once (R174 to R176). -/
theorem State.acceptAck_eq (s : State) (a : Seq) (k : Nat) :
    s.acceptAck a k = { s with
      out := s.out.drop k
      sBase := seqInc s.n a
      fAckUnsent := s.fAckUnsent || decide (s.outCnt < k)
      tArmed := decide (s.mode = .win ∧ ¬ (s.outCnt ≤ k ∧ s.sEof = true))
      tCnt := if s.mode = .win ∧ ¬ (s.outCnt ≤ k ∧ s.sEof = true) then s.tRto else 0 } := by
  have hdrop : s.out.drop (if decide (s.outCnt < k) = true then s.outCnt else k) = s.out.drop k := by
    by_cases h : s.outCnt < k
    · rw [if_pos (decide_eq_true h), State.outCnt, List.drop_length, List.drop_eq_nil_of_le (by exact Nat.le_of_lt h)]
    · rw [if_neg (by simpa using h)]
  have hempty : (s.out.drop k).isEmpty = decide (s.outCnt ≤ k) := by
    by_cases h : s.outCnt ≤ k
    · rw [List.drop_eq_nil_of_le h, decide_eq_true h]; rfl
    · rw [decide_eq_false h, List.isEmpty_eq_false_iff, Ne, List.drop_eq_nil_iff]
      exact h
  cases hm : s.mode with
  | so =>
    simp only [State.acceptAck, hm, State.outDropFront, State.timerCancel, hdrop]
    simp
  | win =>
    simp only [State.acceptAck, hm, State.outDropFront, State.timerCancel, hdrop, hempty]
    by_cases h1 : s.outCnt ≤ k <;> cases h2 : s.sEof <;> simp [h1, State.timerStart]

/-- SND.ACK's body on an ack in the window (R170). -/
theorem State.ackEffect_accepted {s : State} {d : Datagram} {a : Seq} {e : Bool} {p : List Byte}
    (hd : dec s.mode d = .ok a e p) (ho : seqOff s.n s.sBase a < s.weff) :
    s.ackEffect d = s.acceptAck a (seqOff s.n s.sBase a + 1) := by
  simp [State.ackEffect, hd, ho]

/-- A corrupt datagram (R172) or an ack outside the window (R173) changes nothing. -/
theorem State.ackEffect_ignored {s : State} {d : Datagram}
    (h : ∀ a e p, dec s.mode d = .ok a e p → s.weff ≤ seqOff s.n s.sBase a) : s.ackEffect d = s := by
  unfold State.ackEffect
  split
  · rfl
  · rename_i a e p hd
    simp only [if_neg (Nat.not_lt.mpr (h a e p hd))]

/-- Everything SND.ACK's body can do: accept, or nothing. -/
theorem State.ackEffect_cases (s : State) (d : Datagram) :
    s.ackEffect d = s ∨ ∃ a e p, dec s.mode d = .ok a e p ∧ seqOff s.n s.sBase a < s.weff ∧
      s.ackEffect d = s.acceptAck a (seqOff s.n s.sBase a + 1) := by
  rcases hd : dec s.mode d with ⟨a, e, p⟩ | c
  · by_cases ho : seqOff s.n s.sBase a < s.weff
    · exact .inr ⟨a, e, p, rfl, ho, State.ackEffect_accepted hd ho⟩
    · refine .inl (State.ackEffect_ignored ?_)
      intro a' e' p' h
      rw [hd] at h
      cases h
      omega
  · refine .inl (State.ackEffect_ignored ?_)
    intro a' e' p' h
    rw [hd] at h
    cases h

/-- SND.ACK: when it takes a datagram, and what then. -/
theorem takeAck_next {d : Datagram} {s t : State} :
    takeAck d s = .next t ↔ s.Sending ∧ d.length ≤ 128 ∧ s.phase = .wait ∧ t = s.ackEffect d := by
  simp only [takeAck, whenLive_next, whenRole_next, whenPresentable_next, whenEnabled_next, State.Sending,
    State.canAck, decide_eq_true_eq, Host.Outcome.next.injEq]
  tauto

/-! ## RCV.FRAME -/

/-- The accept branch, all fields at once (R200, R203, R205, R207). -/
theorem State.acceptFrame_eq (s : State) (q : Seq) (e : Bool) (p : List Byte) (hs : s.rState = .awaitingFrame) :
    s.acceptFrame q e p = { s with
      log := s.log ++
        (if e then [.sinkWrite p, .tx (encAck s.mode q), .sinkClose] else [.sinkWrite p, .tx (encAck s.mode q)])
      chOut := s.chOut ++ [encAck s.mode q]
      rLast := q
      rFirst := false
      rState := if e then .complete else .awaitingFrame } := by
  cases e <;> simp [State.acceptFrame, State.sinkWrite, State.tx, State.sinkClose, hs]

/-- RCV.FRAME's body without effect: COMPLETE (R208), dropped (R201), corrupt (R202). -/
theorem State.frameEffect_ignored {s : State} {d : Datagram} {drop : Bool}
    (h : s.rState = .complete ∨ drop = true ∨ ∃ c, dec s.mode d = .corrupt c) : s.frameEffect d drop = s := by
  unfold State.frameEffect
  cases hr : s.rState with
  | complete => rfl
  | awaitingFrame =>
    cases drop with
    | true => simp
    | false =>
      obtain ⟨c, hc⟩ : ∃ c, dec s.mode d = .corrupt c := by simpa [hr] using h
      simp [hc]

/-- RCV.FRAME's body on a valid frame (R203 to R206). -/
theorem State.frameEffect_valid {s : State} {d : Datagram} {q : Seq} {e : Bool} {p : List Byte}
    (hs : s.rState = .awaitingFrame) (hd : dec s.mode d = .ok q e p) :
    s.frameEffect d false =
      if s.accepts q then s.acceptFrame q e p else s.tx (encAck s.mode s.rLast) := by
  unfold State.frameEffect
  simp [hs, hd]

/-- Everything RCV.FRAME's body can do: nothing, accept, or acknowledge again. -/
theorem State.frameEffect_cases (s : State) (d : Datagram) (drop : Bool) :
    ((s.rState = .complete ∨ drop = true ∨ ∃ c, dec s.mode d = .corrupt c) ∧ s.frameEffect d drop = s) ∨
    ∃ q e p, s.rState = .awaitingFrame ∧ drop = false ∧ dec s.mode d = .ok q e p ∧
      ((s.accepts q = true ∧ s.frameEffect d drop = s.acceptFrame q e p) ∨
        (s.accepts q = false ∧ s.frameEffect d drop = s.tx (encAck s.mode s.rLast))) := by
  by_cases h : s.rState = .complete ∨ drop = true ∨ ∃ c, dec s.mode d = .corrupt c
  · exact .inl ⟨h, State.frameEffect_ignored h⟩
  · right
    simp only [not_or, not_exists] at h
    have hs : s.rState = .awaitingFrame := by cases hr : s.rState <;> simp_all
    have hf : drop = false := by simpa using h.2.1
    subst hf
    rcases hd : dec s.mode d with ⟨q, e, p⟩ | c
    · refine ⟨q, e, p, hs, rfl, rfl, ?_⟩
      rw [State.frameEffect_valid hs hd]
      cases s.accepts q <;> simp
    · exact absurd hd (h.2.2 c)

/-- RCV.FRAME: when it takes a datagram, and what then. -/
theorem takeFrame_next {d : Datagram} {drop : Bool} {s t : State} :
    takeFrame d drop s = .next t ↔ s.Receiving ∧ d.length ≤ 128 ∧ t = s.frameEffect d drop := by
  simp only [takeFrame, whenLive_next, whenRole_next, whenPresentable_next, State.Receiving,
    Host.Outcome.next.injEq]
  tauto

/-! ## Arrival of a frame -/

/-- Everything an arrival can do: taken as RCV.FRAME, taken as SND.ACK, kept by the Channel Adapter, or lost before the first
RESET. -/
theorem arrive_next {d : Datagram} {drop : Bool} {s t : State} :
    arrive d drop s = .next t ↔ d.length ≤ 128 ∧
      ((s.Receiving ∧ t = s.frameEffect d drop) ∨ (s.Sending ∧ s.phase = .wait ∧ t = s.ackEffect d) ∨
        (((s.Sending ∧ s.phase ≠ .wait) ∨ (s.live = true ∧ ¬ s.Running)) ∧ t = { s with chIn := s.chIn ++ [d] }) ∨
        (s.live = false ∧ t = s)) := by
  simp only [arrive, whenPresentable_next, State.Receiving, State.Sending, State.Running, State.canAck]
  constructor
  · rintro ⟨hl, h⟩
    refine ⟨hl, ?_⟩
    cases h1 : s.live <;> cases h2 : s.failed <;> cases h3 : s.closed <;> cases h4 : s.role <;>
      simp [h1, h2, h3, h4] at h ⊢ <;> (try exact h.symm)
    split at h <;> simp_all
  · rintro ⟨hl, h⟩
    refine ⟨hl, ?_⟩
    cases h1 : s.live <;> cases h2 : s.failed <;> cases h3 : s.closed <;> cases h4 : s.role <;>
      simp [h1, h2, h3, h4] at h ⊢ <;> (try exact h.symm)
    split <;> simp_all

/-- What arrives outside a session is lost before the first RESET and kept after the end (R237, R262). -/
theorem arrive_dead {s : State} (hs : ¬ s.Running) (d : Datagram) (drop : Bool) (hd : d.length ≤ 128) :
    (s.live = false → arrive d drop s = .next s) ∧
      (s.live = true → arrive d drop s = .next { s with chIn := s.chIn ++ [d] }) :=
  ⟨fun h => arrive_next.mpr ⟨hd, .inr (.inr (.inr ⟨h, rfl⟩))⟩,
    fun h => arrive_next.mpr ⟨hd, .inr (.inr (.inl ⟨.inr ⟨h, hs⟩, rfl⟩))⟩⟩

/-! ## The end of a session -/

theorem State.teardownTimer_eq (s : State) :
    s.teardownTimer = { s with
      tArmed := if s.role = .sender then false else s.tArmed
      tCnt := if s.role = .sender then 0 else s.tCnt } := by
  unfold State.teardownTimer
  split <;> rename_i h
  · rw [if_pos h, if_pos h]; rfl
  · have : s.role ≠ .sender := by simp [h]
    rw [if_neg this, if_neg this]

/-- The entry of ChannelClosed, all fields at once (R222, R241). -/
theorem State.enterFatal_eq (s : State) :
    s.enterFatal .channelClosed = { s with
      tArmed := if s.role = .sender then false else s.tArmed
      tCnt := if s.role = .sender then 0 else s.tCnt
      log := if s.role = .receiver ∧ s.rState ≠ .complete then s.log ++ [.sinkClose] else s.log
      err := 2
      failed := true } := by
  unfold State.enterFatal
  rw [State.teardownTimer_eq]
  cases hr : s.role <;> cases hst : s.rState <;> simp [State.sinkClose, ErrorKind.code]

/-- Every gated operation is refused outside a session, under the name of the state it is in (R41, R223, R260). -/
theorem whenLive_dead {s : State} (h : ¬ s.Running) (k : Out) :
    whenLive s k = if s.live then .refused .sessionOver else .refused .noSession := by
  unfold whenLive
  unfold State.Running at h
  cases h1 : s.live <;> cases h2 : s.failed <;> cases h3 : s.closed <;> simp_all

/-! ## The accept test -/

theorem accepts_win {s : State} {q : Seq} (hm : s.mode = .win) (hl : s.rLast.toNat < s.n) :
    s.accepts q = true ↔ q.toNat = (s.rLast.toNat + 1) % 128 := by
  have := seqInc_toNat hl
  simp only [State.accepts, hm, decide_eq_true_eq]
  rw [BitVec.toNat_inj.symm]
  rw [show s.n = modulus s.mode from rfl, this, hm]
  rfl

theorem accepts_so {s : State} {q : Seq} (hm : s.mode = .so) :
    s.accepts q = true ↔ (s.rFirst = true ∨ q ≠ s.rLast) := by
  simp [State.accepts, hm]

/-! ## The ports' log -/

theorem txs_append (a b : List PortAct) : txs (a ++ b) = txs a ++ txs b := by
  induction a with
  | nil => rfl
  | cons x xs ih => cases x <;> simp [txs, ih]

theorem writes_append (a b : List PortAct) : writes (a ++ b) = writes a ++ writes b := by
  induction a with
  | nil => rfl
  | cons x xs ih => cases x <;> simp [writes, ih]

theorem closes_append (a b : List PortAct) : closes (a ++ b) = closes a + closes b := by
  induction a with
  | nil => simp [closes]
  | cons x xs ih => cases x <;> simp [closes, ih]; omega

end Sys2Proof.Machine
end

