-- ==== Sys2Proof/Laws/PerInstr.lean ====
section
/-! SUPPORT. One fact about every instruction as it is presented: the port its kind uses (R103), one lemma per constructor. -/

namespace Sys2Proof.Laws.Ports

/-- The transaction of `i` is at the port of its kind: events at the event port, frames at the RX port, the rest as calls. -/
def Statement (i : Instr) : Prop :=
  encodeTxn i =
    if i.isFrame then .rx (encodeBytes i) (match i with | .frameW _ _ _ _ d | .frameS _ _ _ _ d => d | _ => false)
    else if i.isEvent then .event (encodeBytes i) else .call (encodeBytes i)

theorem reset (role : Role) (mode : Mode) (w trto : Nat) : Statement (.reset role mode w trto) := rfl
theorem close : Statement .close := rfl
theorem chFail : Statement .chFail := rfl
theorem cksum (d : Datagram) : Statement (.cksum d) := rfl
theorem encW (seq : Seq) (payload : List Byte) (last : Bool) : Statement (.encW seq payload last) := rfl
theorem encS (seq : Seq) (payload : List Byte) (last : Bool) : Statement (.encS seq payload last) := rfl
theorem decW (d : Datagram) : Statement (.decW d) := rfl
theorem decS (d : Datagram) : Statement (.decS d) := rfl
theorem seqInc (x : Seq) : Statement (.seqInc x) := rfl
theorem seqOff (base v : Seq) : Statement (.seqOff base v) := rfl
theorem inWin (base : Seq) (size : Nat) (v : Seq) : Statement (.inWin base size v) := rfl
theorem sndSend : Statement .sndSend := rfl
theorem sndAck (d : Datagram) : Statement (.sndAck d) := rfl
theorem tmrStart : Statement .tmrStart := rfl
theorem tmrCancel : Statement .tmrCancel := rfl
theorem tmrTick : Statement .tmrTick := rfl
theorem tmrFire : Statement .tmrFire := rfl
theorem rcvFrame (d : Datagram) (drop : Bool) : Statement (.rcvFrame d drop) := rfl
theorem frameW (eot : Bool) (seq : Seq) (cks : Byte) (payload : List Byte) (drop : Bool) :
    Statement (.frameW eot seq cks payload drop) := rfl
theorem frameS (reserved : BitVec 7) (seq : BitVec 1) (cks : Byte) (payload : List Byte) (drop : Bool) :
    Statement (.frameS reserved seq cks payload drop) := rfl

end Sys2Proof.Laws.Ports
end

