-- ==== Sys2Proof/Laws/Step.lean ====
section
/-! SUPPORT. What a step can do, once: `step` runs one instruction, or lets a short datagram arrive, or only moves datagrams in
flight; and what each instruction's meaning is when it answers a next state. -/

namespace Sys2Proof.Machine

/-! ## Step -/

/-- The RX port: what is presented runs as an instruction, or is shorter than a frame and arrives. -/
theorem presentRx_next {d : Datagram} {drop : Bool} {s t : State} (h : presentRx d drop s = .next t) :
    (∃ i, i.isFrame = true ∧ exec i s = .next t) ∨ arrive d drop s = .next t := by
  unfold presentRx at h
  split at h
  · rename_i i hi
    refine .inl ⟨i, ?_, h⟩
    simp only [decodeTxn, decodeFrame] at hi
    split at hi
    · cases hm : s.mode <;> simp only [hm, checked] at hi <;> split at hi <;> cases hi <;> rfl
    · cases hi
  · exact .inr h
  · cases h

/-- An operation that runs at the event or call port is no sub-operation (R103). -/
theorem presentOp_next {x : Txn} {s t : State} (h : presentOp x s = .next t) :
    ∃ i, i.isSub = false ∧ exec i s = .next t := by
  unfold presentOp at h
  split at h
  · split at h
    · cases h
    · rename_i i _ hi
      exact ⟨i, by simpa using hi, h⟩
  · cases h

/-- A frame is no sub-operation. -/
theorem isSub_of_isFrame {i : Instr} (h : i.isFrame = true) : i.isSub = false := by
  cases i <;> first | rfl | simp [Instr.isFrame] at h

/-- The same registers and log: only datagrams in flight and what is presented differ. -/
def SameEngine (s t : State) : Prop := t = { s with chIn := t.chIn, chOut := t.chOut, inputs := t.inputs }

/-- What can happen to the engine in one step, `s0` being the state with the input taken and, for a datagram that was in
flight, without it. -/
inductive StepCase (s t : State) : Prop
  | quiet (h : SameEngine s t)
  | instruction (i : Instr) (s0 : State) (h0 : SameEngine s s0) (h : exec i s0 = .next t)
      (hsub : i.isSub = false)
  | arrival (d : Datagram) (drop : Bool) (s0 : State) (h0 : SameEngine s s0) (h : arrive d drop s0 = .next t)

theorem stepCase_of_presentRx {s s0 t : State} {d : Datagram} {drop : Bool} (h0 : SameEngine s s0)
    (h : presentRx d drop s0 = .next t) : StepCase s t := by
  rcases presentRx_next h with ⟨i, hi, hx⟩ | ha
  · exact .instruction i s0 h0 hx (isSub_of_isFrame hi)
  · exact .arrival d drop s0 h0 ha

theorem onDatagram_next {s t : State} {dir : Direction} {i : Nat} {k : Datagram → List Datagram → Out}
    (h : onDatagram s dir i k = .next t) : ∃ d, k d (s.flight dir) = .next t := by
  unfold onDatagram at h
  split at h
  · exact ⟨_, h⟩
  · cases h

theorem sameEngine_withFlight (s : State) (rest : List Txn) (dir : Direction) (ds : List Datagram) :
    SameEngine s (State.withFlight { s with inputs := rest } dir ds) := by
  cases dir <;> rfl

/-- One step, by cases. -/
theorem step_cases {s t : State} (h : step s = .next t) : StepCase s t := by
  unfold step at h
  split at h
  · cases h
    exact .quiet rfl
  · rename_i x rest hin
    have h0 : SameEngine s { s with inputs := rest } := rfl
    cases x with
    | event bs =>
      obtain ⟨i, hi, hx⟩ := presentOp_next h
      exact .instruction i _ h0 hx hi
    | call bs =>
      obtain ⟨i, hi, hx⟩ := presentOp_next h
      exact .instruction i _ h0 hx hi
    | rx d drop => exact stepCase_of_presentRx h0 h
    | channel a =>
      simp only [presentTxn] at h
      cases a <;> simp only [channelAct] at h
      case appear dir d =>
        cases h
        exact .quiet (sameEngine_withFlight s rest dir _)
      case present i drop =>
        obtain ⟨d, hd⟩ := onDatagram_next h
        exact stepCase_of_presentRx (sameEngine_withFlight s rest .fromPeer _) hd
      all_goals
        obtain ⟨d, hd⟩ := onDatagram_next h
        cases hd
        exact .quiet (sameEngine_withFlight s rest _ _)

/-- The registers and the log of two states that are the same engine. -/
theorem SameEngine.live {s t : State} (h : SameEngine s t) : t.live = s.live := by rw [h]
theorem SameEngine.log {s t : State} (h : SameEngine s t) : t.log = s.log := by rw [h]
theorem SameEngine.trans {s t u : State} (h : SameEngine s t) (h' : SameEngine t u) : SameEngine s u := by
  unfold SameEngine at *
  rw [h', h]

/-! ## The channel -/

@[simp] theorem State.flight_withFlight (s : State) (dir : Direction) (ds : List Datagram) :
    (s.withFlight dir ds).flight dir = ds := by cases dir <;> rfl

theorem State.flight_withFlight_other (s : State) {dir dir' : Direction} (h : dir' ≠ dir) (ds : List Datagram) :
    (s.withFlight dir ds).flight dir' = s.flight dir' := by
  cases dir <;> cases dir' <;> first | rfl | exact absurd rfl h

/-- A step takes the first transaction presented. -/
theorem step_cons {s : State} {x : Txn} {rest : List Txn} (h : s.inputs = x :: rest) :
    step s = presentTxn x { s with inputs := rest } := by
  unfold step
  rw [h]

theorem onDatagram_some {s : State} {dir : Direction} {i : Nat} {d : Datagram} (h : (s.flight dir)[i]? = some d)
    (k : Datagram → List Datagram → Out) : onDatagram s dir i k = k d (s.flight dir) := by
  unfold onDatagram
  rw [h]

theorem onDatagram_none {s : State} {dir : Direction} {i : Nat} (h : (s.flight dir).length ≤ i)
    (k : Datagram → List Datagram → Out) : onDatagram s dir i k = .refused .noSuchDatagram := by
  unfold onDatagram
  rw [List.getElem?_eq_none h]

/-- A datagram of 0 or 1 bytes arrives without being a frame (R99). -/
theorem presentRx_short {d : Datagram} (h : d.length < 2) (drop : Bool) (s : State) : presentRx d drop s = arrive d drop s := by
  match d, h with
  | [], _ => rfl
  | [_], _ => rfl

/-! ## The meanings, when they answer a next state -/

theorem execReset_next {r : Role} {m : Mode} {w k : Nat} {s t : State} :
    exec (.reset r m w k) s = .next t ↔ legalParameters r m w k = true ∧ t = s.newSession r m w k := by
  by_cases hl : legalParameters r m w k = true
  · simp only [exec, execReset, if_pos hl, Host.Outcome.next.injEq]
    exact ⟨fun h => ⟨hl, h.symm⟩, fun h => h.2.symm⟩
  · simp only [exec, execReset, if_neg hl]
    exact ⟨fun h => by (cases h), fun h => absurd h.1 hl⟩

theorem legalParameters_iff {r : Role} {m : Mode} {w k : Nat} :
    legalParameters r m w k = true ↔ (m = .win → 1 ≤ w ∧ w ≤ 128) ∧ (r = .sender → 1 ≤ k) := by
  have hw : Config.maxWindow = 128 := rfl
  cases r <;> cases m <;> simp [legalParameters, ← hw]

theorem execClose_next {s t : State} :
    exec .close s = .next t ↔ s.Running ∧ t = { s.teardownTimer with closed := true } := by
  simp only [exec, execClose, whenLive_next, Host.Outcome.next.injEq, eq_comm (a := t)]

theorem execChFail_next {s t : State} :
    exec .chFail s = .next t ↔ s.Running ∧ t = s.enterFatal .channelClosed := by
  simp only [exec, execChFail, whenLive_next, Host.Outcome.next.injEq, eq_comm (a := t)]

/-- SND.SEND's body while the source has not ended, all fields at once (R151, R153). -/
theorem State.sendEffect_eq {s : State} (he : s.sEof = false) :
    s.sendEffect =
      let r := readSource 124 s.src
      let f := enc s.mode s.sNext r.1 (r.1.length < 124)
      { s with
        src := r.2
        out := s.out ++ [f]
        log := s.log ++ [.tx f]
        chOut := s.chOut ++ [f]
        tArmed := if s.mode = .so ∨ s.sStarted = false then true else s.tArmed
        tCnt := if s.mode = .so ∨ s.sStarted = false then s.tRto else s.tCnt
        sStarted := true
        sNext := seqInc s.n s.sNext
        sEof := r.1.length < 124 } := by
  unfold State.sendEffect State.startsTimer
  cases hm : s.mode <;> cases hst : s.sStarted <;> simp [he, hm, State.n]

theorem execSndSend_next {s t : State} :
    exec .sndSend s = .next t ↔ s.Sending ∧ s.outCnt < s.weff ∧ s.sEof = false ∧ t = s.sendEffect := by
  simp only [exec, execSndSend, whenLive_next, whenRole_next, whenEnabled_next, State.canSend, decide_eq_true_eq,
    Host.Outcome.next.injEq, State.Sending]
  constructor
  · rintro ⟨h1, h2, h3, h4⟩
    exact ⟨⟨h1, h2⟩, ((phase_fill_iff h1).mp h3).1, ((phase_fill_iff h1).mp h3).2, h4.symm⟩
  · rintro ⟨⟨h1, h2⟩, h3, h4, h5⟩
    exact ⟨h1, h2, (phase_fill_iff h1).mpr ⟨h3, h4⟩, h5.symm⟩

theorem execSndAck_next {d : Datagram} {s t : State} :
    exec (.sndAck d) s = .next t ↔ s.Sending ∧ d.length ≤ 128 ∧ s.phase = .wait ∧ t = s.ackEffect d := takeAck_next

theorem execTmrStart_next {s t : State} : exec .tmrStart s = .next t ↔ s.Sending ∧ t = s.timerStart := by
  simp only [exec, execTmrStart, whenLive_next, whenRole_next, Host.Outcome.next.injEq, State.Sending, and_assoc,
    eq_comm (a := t)]

theorem execTmrCancel_next {s t : State} : exec .tmrCancel s = .next t ↔ s.Sending ∧ t = s.timerCancel := by
  simp only [exec, execTmrCancel, whenLive_next, whenRole_next, Host.Outcome.next.injEq, State.Sending, and_assoc,
    eq_comm (a := t)]

theorem tick_eq (s : State) :
    (if s.timer = .running then { s with tCnt := s.tCnt - 1 } else s) =
      { s with tCnt := if s.tArmed = true ∧ 0 < s.tCnt then s.tCnt - 1 else s.tCnt } := by
  have h : s.timer = .running ↔ s.tArmed = true ∧ 0 < s.tCnt := by
    unfold State.timer
    cases s.tArmed <;> by_cases h : s.tCnt = 0 <;> simp [h]
    omega
  by_cases hc : s.tArmed = true ∧ 0 < s.tCnt
  · rw [if_pos (h.mpr hc), if_pos hc]
  · rw [if_neg (fun e => hc (h.mp e)), if_neg hc]

theorem execTmrTick_next {s t : State} :
    exec .tmrTick s = .next t ↔ s.Sending ∧
      t = { s with tCnt := if s.tArmed = true ∧ 0 < s.tCnt then s.tCnt - 1 else s.tCnt } := by
  rw [← tick_eq]
  simp only [exec, execTmrTick, whenLive_next, whenRole_next, Host.Outcome.next.injEq, State.Sending, and_assoc,
    eq_comm (a := t)]

theorem timer_expired_iff {s : State} : s.timer = .expired ↔ s.tArmed = true ∧ s.tCnt = 0 := by
  unfold State.timer
  cases s.tArmed <;> simp

theorem execTmrFire_next {s t : State} :
    exec .tmrFire s = .next t ↔ s.Sending ∧ s.tArmed = true ∧ s.tCnt = 0 ∧
      t = { s with log := s.log ++ s.out.map .tx, chOut := s.chOut ++ s.out, tCnt := s.tRto } := by
  simp only [exec, execTmrFire, whenLive_next, whenRole_next, whenEnabled_next, decide_eq_true_eq, timer_expired_iff,
    State.txAll_eq, Host.Outcome.next.injEq, State.Sending]
  constructor
  · rintro ⟨h1, h2, ⟨h3, h4⟩, h5⟩
    exact ⟨⟨h1, h2⟩, h3, h4, h5.symm⟩
  · rintro ⟨⟨h1, h2⟩, h3, h4, h5⟩
    exact ⟨h1, h2, ⟨h3, h4⟩, h5.symm⟩

theorem execRcvFrame_next {d : Datagram} {drop : Bool} {s t : State} :
    exec (.rcvFrame d drop) s = .next t ↔ s.Receiving ∧ d.length ≤ 128 ∧ t = s.frameEffect d drop := takeFrame_next

/-- The functions of kind F: when they answer, only the result port changes (R129). -/
def isFunction : Instr → Bool
  | .cksum _ | .encW .. | .encS .. | .decW _ | .decS _ | .seqInc _ | .seqOff .. | .inWin .. => true
  | .reset .. | .close | .chFail | .sndSend | .sndAck _ | .tmrStart | .tmrCancel | .tmrTick | .tmrFire => false
  | .rcvFrame .. | .frameW .. | .frameS .. => false

theorem exec_function_next {i : Instr} {s t : State} (hi : isFunction i = true) (h : exec i s = .next t) :
    s.Running ∧ ∃ r, t = s.returning r := by
  cases i <;> simp only [isFunction, Bool.false_eq_true] at hi <;>
    simp only [exec, execCksum, execEncW, execEncS, execDecW, execDecS, execSeqInc, execSeqOff, execInWin,
      whenLive_next, whenRole_next, whenDomain_next, whenPresentable_next, Host.Outcome.next.injEq] at h
  all_goals first
    | exact ⟨h.1, _, h.2.2.symm⟩
    | exact ⟨h.1, _, h.2.2.2.symm⟩

/-- A frame at the RX port is an arrival. -/
theorem exec_frame_next {i : Instr} {s t : State} (hi : i.isFrame = true) (h : exec i s = .next t) :
    ∃ d drop, arrive d drop s = .next t := by
  cases i <;> simp only [Instr.isFrame, Bool.false_eq_true] at hi
  · exact ⟨_, _, h⟩
  · exact ⟨_, _, h⟩

/-- Every instruction, by what it does when it answers a next state. -/
inductive ExecCase (i : Instr) (s t : State) : Prop
  | reset (r : Role) (m : Mode) (w k : Nat) (hi : i = .reset r m w k) (hl : (m = .win → 1 ≤ w ∧ w ≤ 128) ∧ (r = .sender → 1 ≤ k))
      (h : t = s.newSession r m w k)
  | close (hi : i = .close) (hs : s.Running) (h : t = { s.teardownTimer with closed := true })
  | chFail (hi : i = .chFail) (hs : s.Running) (h : t = s.enterFatal .channelClosed)
  | function (hi : isFunction i = true) (hs : s.Running) (r : FnResult) (h : t = s.returning r)
  | send (hi : i = .sndSend) (hs : s.Sending) (hf : s.outCnt < s.weff) (he : s.sEof = false) (h : t = s.sendEffect)
  | ack (d : Datagram) (hi : i = .sndAck d ∨ i.isFrame = true) (hs : s.Sending) (hw : s.phase = .wait) (h : t = s.ackEffect d)
  | start (hi : i = .tmrStart) (hs : s.Sending) (h : t = s.timerStart)
  | cancel (hi : i = .tmrCancel) (hs : s.Sending) (h : t = s.timerCancel)
  | tick (hi : i = .tmrTick) (hs : s.Sending)
      (h : t = { s with tCnt := if s.tArmed = true ∧ 0 < s.tCnt then s.tCnt - 1 else s.tCnt })
  | fire (hi : i = .tmrFire) (hs : s.Sending) (ha : s.tArmed = true) (hc : s.tCnt = 0)
      (h : t = { s with log := s.log ++ s.out.map .tx, chOut := s.chOut ++ s.out, tCnt := s.tRto })
  | frame (d : Datagram) (drop : Bool) (hi : i = .rcvFrame d drop ∨ i.isFrame = true) (hs : s.Receiving)
      (h : t = s.frameEffect d drop)
  | held (hi : i.isFrame = true) (d : Datagram) (h : t = { s with chIn := s.chIn ++ [d] })
  | lost (hi : i.isFrame = true) (hs : s.live = false) (h : t = s)

/-- What arrives is taken, held or lost. -/
theorem arrive_execCase {i : Instr} {d : Datagram} {drop : Bool} {s t : State} (hi : i.isFrame = true)
    (h : arrive d drop s = .next t) : ExecCase i s t := by
  rcases (arrive_next.mp h).2 with ⟨hs, ht⟩ | ⟨hs, hw, ht⟩ | ⟨-, ht⟩ | ⟨hl, ht⟩
  · exact .frame d drop (.inr hi) hs ht
  · exact .ack d (.inr hi) hs hw ht
  · exact .held hi d ht
  · exact .lost hi hl ht

/-- One instruction, by cases. -/
theorem exec_cases {i : Instr} {s t : State} (h : exec i s = .next t) : ExecCase i s t := by
  cases i with
  | reset r m w k =>
    obtain ⟨hl, ht⟩ := execReset_next.mp h
    exact .reset r m w k rfl (legalParameters_iff.mp hl) ht
  | close => exact .close rfl (execClose_next.mp h).1 (execClose_next.mp h).2
  | chFail => exact .chFail rfl (execChFail_next.mp h).1 (execChFail_next.mp h).2
  | cksum d => obtain ⟨hs, r, ht⟩ := exec_function_next rfl h; exact .function rfl hs r ht
  | encW q p l => obtain ⟨hs, r, ht⟩ := exec_function_next rfl h; exact .function rfl hs r ht
  | encS q p l => obtain ⟨hs, r, ht⟩ := exec_function_next rfl h; exact .function rfl hs r ht
  | decW d => obtain ⟨hs, r, ht⟩ := exec_function_next rfl h; exact .function rfl hs r ht
  | decS d => obtain ⟨hs, r, ht⟩ := exec_function_next rfl h; exact .function rfl hs r ht
  | seqInc x => obtain ⟨hs, r, ht⟩ := exec_function_next rfl h; exact .function rfl hs r ht
  | seqOff b v => obtain ⟨hs, r, ht⟩ := exec_function_next rfl h; exact .function rfl hs r ht
  | inWin b n v => obtain ⟨hs, r, ht⟩ := exec_function_next rfl h; exact .function rfl hs r ht
  | sndSend => obtain ⟨hs, hf, he, ht⟩ := execSndSend_next.mp h; exact .send rfl hs hf he ht
  | sndAck d => obtain ⟨hs, -, hw, ht⟩ := execSndAck_next.mp h; exact .ack d (.inl rfl) hs hw ht
  | tmrStart => exact .start rfl (execTmrStart_next.mp h).1 (execTmrStart_next.mp h).2
  | tmrCancel => exact .cancel rfl (execTmrCancel_next.mp h).1 (execTmrCancel_next.mp h).2
  | tmrTick => exact .tick rfl (execTmrTick_next.mp h).1 (execTmrTick_next.mp h).2
  | tmrFire => obtain ⟨hs, ha, hc, ht⟩ := execTmrFire_next.mp h; exact .fire rfl hs ha hc ht
  | rcvFrame d drop => obtain ⟨hs, -, ht⟩ := execRcvFrame_next.mp h; exact .frame d drop (.inl rfl) hs ht
  | frameW e q c p drop => exact arrive_execCase rfl h
  | frameS r q c p drop => exact arrive_execCase rfl h

end Sys2Proof.Machine
end

