-- ==== Sys2Proof/Tests/Slice0.lean ====
section
/-! SUPPORT. Tests. Expected results are those of 95_test_vectors.md or worked out from the rule named; then, for every
statement with hypotheses, concrete values that meet them. -/

namespace Sys2Proof.Tests

open Sys2Proof.Machine

/-! ## Helpers -/

/-- One transaction at `s`, and a check of the state after. -/
def after (s : State) (t : Txn) (p : State → Bool) : Bool :=
  match step { s with inputs := [t] } with
  | .next u => p u
  | .fault _ | .refused _ => false

/-- One transaction at `s` is refused for this reason. -/
def refuses (s : State) (t : Txn) (r : Refusal) : Bool :=
  match step { s with inputs := [t] } with
  | .refused q => decide (q = r)
  | .next _ | .fault _ => false

/-- An instruction runs, and a check of the state after: for the two sub-operations, which no step runs by itself. -/
def runs (i : Instr) (s : State) (p : State → Bool) : Bool :=
  match exec i s with
  | .next u => p u
  | .fault _ | .refused _ => false

/-- A windowed sender of window 4, just reset. -/
def win4 : State := { State.reset with mode := .win, w := 4, rLast := 127 }

/-- The start state of 95_test_vectors.md section 3.3. -/
def win4Full : State :=
  { win4 with sBase := 126, sNext := 2, sStarted := true, tArmed := true, tCnt := 40,
              out := [[0x7E, 0x81], [0x7F, 0x80], [0x00, 0xFF], [0x01, 0xFE]] }

/-- The same at the end of the source (row 10). -/
def win4Last : State := { win4Full with sEof := true, out := [[0x7E, 0x81], [0x7F, 0x80], [0x00, 0xFF], [0x81, 0x7E]] }

/-- Row 14: three frames out, window 8, the last one final. -/
def win8Last : State :=
  { win4 with w := 8, sNext := 3, sEof := true, sStarted := true, tArmed := true, tCnt := 40,
              out := [[0x00, 0xFF], [0x01, 0xFE], [0x82, 0x7D]] }

/-- A single-outstanding sender waiting for the ack of frame 0 (row 11). -/
def soWait : State :=
  { State.reset with sNext := 1, sStarted := true, tArmed := true, tCnt := 40, out := [[0x00, 0xFF]] }

/-- A sender that has sent everything and has it acknowledged. -/
def soDone : State := { State.reset with sBase := 1, sNext := 1, sEof := true, sStarted := true }

/-- The widest window a session can take, two frames outstanding, the last one final (R266). -/
def win128Last : State :=
  { win4 with w := 128, sNext := 2, sEof := true, sStarted := true, tArmed := true, tCnt := 40,
              out := [[0x00, 0xFF], [0x81, 0x7E]] }

/-- The windowed and the single-outstanding receiver, just reset. -/
def rcvWin : State := { State.reset with role := .receiver, mode := .win, tRto := 1, rLast := 127 }
def rcvSo : State := { State.reset with role := .receiver, tRto := 1 }

/-- A receiver that is COMPLETE. -/
def rcvDone : State := { rcvWin with rLast := 2, rFirst := false, rState := .complete }

/-- Before the first RESET; after CLOSE. -/
def absent : State := { State.reset with live := false }
def ended : State := { State.reset with closed := true }

/-! ## Ill-formed terms: one per check of WellFormed -/

theorem test_ill_formed_reset : (Instr.reset .sender .win 256 100).WellFormed = false := by decide
theorem test_ill_formed_cksum : (Instr.cksum [0x00]).WellFormed = false := by decide
theorem test_ill_formed_encW : (Instr.encW 0 (List.replicate 125 0) false).WellFormed = false := by
  simp [Instr.WellFormed, Config.chunk]
theorem test_ill_formed_encS_seq : (Instr.encS 2 [] false).WellFormed = false := by decide
theorem test_ill_formed_encS_payload : (Instr.encS 1 (List.replicate 125 0) false).WellFormed = false := by
  simp [Instr.WellFormed, Config.chunk]
theorem test_ill_formed_decW : (Instr.decW (List.replicate 129 0)).WellFormed = false := by
  simp [Instr.WellFormed, Config.maxDgram]
theorem test_ill_formed_decS : (Instr.decS (List.replicate 129 0)).WellFormed = false := by
  simp [Instr.WellFormed, Config.maxDgram]
theorem test_ill_formed_sndAck : (Instr.sndAck (List.replicate 129 0)).WellFormed = false := by
  simp [Instr.WellFormed, Config.maxDgram]
theorem test_ill_formed_rcvFrame : (Instr.rcvFrame (List.replicate 129 0) false).WellFormed = false := by
  simp [Instr.WellFormed, Config.maxDgram]
theorem test_ill_formed_inWin : (Instr.inWin 0 129 0).WellFormed = false := by decide
theorem test_ill_formed_frameW : (Instr.frameW false 0 0 (List.replicate 127 0) false).WellFormed = false := by
  simp [Instr.WellFormed, Config.maxDgram]
theorem test_ill_formed_frameS : (Instr.frameS 0 0 0 (List.replicate 127 0) false).WellFormed = false := by
  simp [Instr.WellFormed, Config.maxDgram]

/-! ## Decoding: words written out from R103 (`{unit, fn}`), R91 (`{EOT, SEQ}`) and R92 (`{0000000, SEQ}`) -/

theorem test_decode_reset : decodeTxn .so (.event [0b00000000, 1, 1, 3, 0x2C, 0x01]) = .ok (.reset .receiver .win 3 300) := by
  decide
theorem test_decode_close : decodeTxn .so (.event [0b00000001]) = .ok .close := by decide
theorem test_decode_chFail : decodeTxn .so (.event [0b00000010]) = .ok .chFail := by decide
theorem test_decode_cksum : decodeTxn .so (.call [0b00010000, 5, 0]) = .ok (.cksum [5, 0]) := by decide
theorem test_decode_encW : decodeTxn .so (.call [0b00010001, 127, 1, 9]) = .ok (.encW 127 [9] true) := by decide
theorem test_decode_encS : decodeTxn .so (.call [0b00010010, 1, 0, 9]) = .ok (.encS 1 [9] false) := by decide
theorem test_decode_decW : decodeTxn .so (.call [0b00010011, 0, 255]) = .ok (.decW [0, 255]) := by decide
theorem test_decode_decS : decodeTxn .so (.call [0b00010100]) = .ok (.decS []) := by decide
theorem test_decode_seqInc : decodeTxn .so (.call [0b00100000, 127]) = .ok (.seqInc 127) := by decide
theorem test_decode_seqOff : decodeTxn .so (.call [0b00100001, 126, 1]) = .ok (.seqOff 126 1) := by decide
theorem test_decode_inWin : decodeTxn .so (.call [0b00100010, 0, 128, 127]) = .ok (.inWin 0 128 127) := by decide
theorem test_decode_sndSend : decodeTxn .so (.event [0b00110000]) = .ok .sndSend := by decide
theorem test_decode_sndAck : decodeTxn .so (.event [0b00110001, 1, 254]) = .ok (.sndAck [1, 254]) := by decide
theorem test_decode_tmrStart : decodeTxn .so (.call [0b01000000]) = .ok .tmrStart := by decide
theorem test_decode_tmrCancel : decodeTxn .so (.call [0b01000001]) = .ok .tmrCancel := by decide
theorem test_decode_tmrTick : decodeTxn .so (.event [0b01000010]) = .ok .tmrTick := by decide
theorem test_decode_tmrFire : decodeTxn .so (.event [0b01000011]) = .ok .tmrFire := by decide
theorem test_decode_rcvFrame : decodeTxn .so (.event [0b01010000, 0, 7]) = .ok (.rcvFrame [7] false) := by decide
theorem test_decode_frameW : decodeTxn .win (.rx [0b10000101, 0x7A] false) = .ok (.frameW true 5 0x7A [] false) := by
  decide
theorem test_decode_frameS : decodeTxn .so (.rx [0b00000001, 0xFE] false) = .ok (.frameS 0 1 0xFE [] false) := by decide
/-- R104: a reserved OP value; R103: a sub-operation is never an event. -/
theorem test_decode_reserved : decodeTxn .so (.event [0x60]) = .error .reservedOp := by decide
theorem test_decode_not_an_event : decodeTxn .so (.event [0x40]) = .error .notAnEvent := by decide

/-- A table word is what the next step decodes. -/
theorem test_table_word : decodeTableWord 8 0x42 = some .tmrTick ∧
    step (State.reset.withFetchWord 8 0x42) = exec .tmrTick State.reset := ⟨by decide, rfl⟩
theorem test_table_frame : decodeTableWord 16 0xFE01 = some (.frameS 0 1 0xFE [] false) := by decide

/-! ## Vectors: Frame Codec (95_test_vectors.md section 2) -/

theorem test_cksum : after win4 (.call [0x10, 0x05, 0x77, 0x68, 0x69]) (fun u => u.result = .byte 0x29) = true := by decide
theorem test_encW_final :
    after win4 (.call [0x11, 4, 1, 0x41, 0x42, 0x43, 0x44]) (fun u => u.result = .frame [0x84, 0x71, 0x41, 0x42, 0x43, 0x44])
      = true := by decide
theorem test_encW_carries :
    after win4 (.call [0x11, 3, 0, 0xFF, 0xFF, 0x02]) (fun u => u.result = .frame [0x03, 0xFC, 0xFF, 0xFF, 0x02]) = true := by
  decide
theorem test_encS :
    after win4 (.call [0x12, 1, 1, 0x41, 0x42, 0x43]) (fun u => u.result = .frame [0x01, 0x38, 0x41, 0x42, 0x43]) = true := by
  decide
theorem test_decW :
    after rcvWin (.call [0x13, 0x84, 0x71, 0x41, 0x42, 0x43, 0x44])
      (fun u => u.result = .decoded (.ok 4 true [0x41, 0x42, 0x43, 0x44])) = true := by decide
theorem test_decW_corrupt :
    after rcvWin (.call [0x13, 0x85, 0x29, 0x68, 0x69]) (fun u => u.result = .decoded (.corrupt .cksum)) = true := by decide
theorem test_decS_reserved :
    after rcvWin (.call [0x14, 0xFF, 0x00]) (fun u => u.result = .decoded (.ok 1 true [])) = true := by decide
theorem test_decS_short :
    after rcvWin (.call [0x14, 0x00]) (fun u => u.result = .decoded (.corrupt .short)) = true := by decide

/-! ## Vectors: sequence arithmetic (section 3.1) -/

theorem test_seqInc_wraps : after win4 (.call [0x20, 127]) (fun u => u.result = .seq 0) = true := by decide
theorem test_seqInc_so : after soWait (.call [0x20, 1]) (fun u => u.result = .seq 0) = true := by decide
theorem test_seqOff_wraps : after win4 (.call [0x21, 126, 1]) (fun u => u.result = .offset 3) = true := by decide
theorem test_seqOff_so : after soWait (.call [0x21, 1, 0]) (fun u => u.result = .offset 1) = true := by decide
/-- R144: with `N = 128`, seen from 126, number 0 comes after 127 and before 1. -/
theorem test_seqLe : seqLe 128 126 127 0 = true ∧ seqLe 128 126 0 127 = false ∧ seqLe 128 126 0 1 = true ∧
    seqLe 128 126 126 126 = true := by decide
theorem test_inWin_in : after win4 (.call [0x22, 100, 128, 99]) (fun u => u.result = .bool true) = true := by decide
theorem test_inWin_out : after win4 (.call [0x22, 126, 4, 2]) (fun u => u.result = .bool false) = true := by decide

/-! ## Vectors: sender (sections 3.2, 3.3) -/

theorem test_send_empty_source :
    after win4 (.event [0x30])
      (fun u => u.log = [.tx [0x80, 0x7F]] ∧ u.sNext = 1 ∧ u.outCnt = 1 ∧ u.sEof ∧ u.sStarted ∧ u.tArmed ∧ u.tCnt = 100 ∧
        u.phase = .wait) = true := by decide
theorem test_send_so :
    after { State.reset with sBase := 1, sNext := 1, src := [[0x55, 0x56, 0x57, 0x58, 0x59, 0x5A]] } (.event [0x30])
      (fun u => u.log = [.tx [0x01, 0xF1, 0x55, 0x56, 0x57, 0x58, 0x59, 0x5A]] ∧ u.sNext = 0 ∧ u.sEof ∧ u.tArmed) = true := by
  decide
theorem test_ack_cumulative :
    after win4Full (.event [0x31, 0x00, 0xFF])
      (fun u => u.out = [[0x01, 0xFE]] ∧ u.sBase = 1 ∧ u.tCnt = 100 ∧ u.phase = .fill) = true := by decide
theorem test_ack_unsent :
    after win8Last (.event [0x31, 0x05, 0xFA])
      (fun u => u.fAckUnsent ∧ u.out = [] ∧ u.sBase = 6 ∧ u.sNext = 3 ∧ u.tArmed = false ∧ u.status = 0x05) = true := by decide

/-! ## Vectors: timer (section 3.4) -/

theorem test_tmrStart : runs .tmrStart win4Full (fun u => u.tArmed ∧ u.tCnt = 100) = true := by decide
theorem test_tmrCancel : runs .tmrCancel win4Full (fun u => u.tArmed = false ∧ u.tCnt = 0) = true := by decide
/-- R180, R181: a sub-operation is called from inside events only. -/
theorem test_sub_operation_alone :
    refuses win4Full (.call [0x40]) .subOperation = true ∧ refuses win4Full (.call [0x41]) .subOperation = true := by decide
theorem test_tmrTick : after { win4Full with tCnt := 1 } (.event [0x42]) (fun u => u.timer = .expired) = true := by decide
theorem test_tmrTick_idle : after win4 (.event [0x42]) (fun u => u.timer = .idle ∧ u.tCnt = 0) = true := by decide
theorem test_tmrFire :
    after { win8Last with tCnt := 0 } (.event [0x43])
      (fun u => u.log = [.tx [0x00, 0xFF], .tx [0x01, 0xFE], .tx [0x82, 0x7D]] ∧ u.tCnt = 100 ∧ u.tArmed ∧
        u.outCnt = 3) = true := by decide
theorem test_tmrFire_running : refuses win4Full (.event [0x43]) .notEnabled = true := by decide

/-! ## Vectors: receiver (section 3.5) -/

theorem test_rcvFrame_final :
    after { rcvWin with rLast := 1, rFirst := false } (.event [0x50, 0, 0x82, 0x7D])
      (fun u => u.log = [.sinkWrite [], .tx [0x02, 0xFD], .sinkClose] ∧ u.rLast = 2 ∧ u.rState = .complete ∧ u.status = 0x01)
      = true := by decide
theorem test_rcvFrame_ahead :
    after { rcvWin with rLast := 0, rFirst := false } (.event [0x50, 0, 0x02, 0xFD])
      (fun u => u.log = [.tx [0x00, 0xFF]] ∧ u.rLast = 0) = true := by decide

/-! ## Vectors: frames at the RX port -/

/-- Row 7 of section 3.5, presented as a frame. -/
theorem test_frameW : after rcvWin (.rx [0x00, 0x2E, 0x68, 0x69] false)
    (fun u => u.log = [.sinkWrite [0x68, 0x69], .tx [0x00, 0xFF]] ∧ u.rLast = 0 ∧ u.rFirst = false) = true := by decide
/-- Row 13 of section 3.3: reserved bits ignored. -/
theorem test_frameS : after soWait (.rx [0x02, 0xFD] false)
    (fun u => u.out = [] ∧ u.sBase = 1 ∧ u.tArmed = false ∧ u.phase = .fill) = true := by decide
/-- R77: in FILL an ack stays with the Channel Adapter. -/
theorem test_frameW_held : after win4 (.rx [0x00, 0xFF] false) (fun u => u.chIn = [[0x00, 0xFF]]) = true := by decide
/-- R72: a duplicated datagram is presented twice over. -/
theorem test_channel_duplicate :
    after { rcvWin with chIn := [[0x00, 0xFF]] } (.channel (.duplicate .fromPeer 0))
      (fun u => u.chIn = [[0x00, 0xFF], [0x00, 0xFF]]) = true := by decide

/-! ## Vectors: session (section 3.6) -/

theorem test_reset : after soWait (.event [0x00, 0, 1, 4, 100])
    (fun u => u.w = 4 ∧ u.mode = .win ∧ u.status = 0 ∧ u.out = [] ∧ u.rLast = 127) = true := by decide
theorem test_reset_refused : refuses soWait (.event [0x00, 0, 1, 129, 100]) .illegalParameter = true := by decide
theorem test_close : after win4Full (.event [0x01]) (fun u => u.status = 0x80 ∧ u.outCnt = 4) = true := by decide
theorem test_close_done : after soDone (.event [0x01]) (fun u => u.status = 0x81) = true := by decide
theorem test_chFail_sender : after win4Full (.event [0x02]) (fun u => u.status = 0x22) = true := by decide
theorem test_chFail_complete : after rcvDone (.event [0x02]) (fun u => u.status = 0x23 ∧ u.log = []) = true := by decide

/-! ## Invariants at the states above -/

theorem test_regInv_reset : RegInv State.reset := by constructor <;> decide
theorem test_regInv_win4Full : RegInv win4Full := by constructor <;> decide
theorem test_regInv_win4Last : RegInv win4Last := by constructor <;> decide
theorem test_regInv_win128Last : RegInv win128Last := by constructor <;> decide
theorem test_regInv_win8Last : RegInv win8Last := by constructor <;> decide
theorem test_regInv_soWait : RegInv soWait := by constructor <;> decide
theorem test_regInv_soDone : RegInv soDone := by constructor <;> decide
theorem test_regInv_rcvDone : RegInv rcvDone := by constructor <;> decide
theorem test_regInv_ended : RegInv ended := by constructor <;> decide

theorem test_sending_win4 : win4.Sending := ⟨by unfold State.Running; decide, rfl⟩
theorem test_sending_reset : State.reset.Sending := ⟨by unfold State.Running; decide, rfl⟩
theorem test_sending_win4Full : win4Full.Sending := ⟨by unfold State.Running; decide, rfl⟩
theorem test_sending_win4Last : win4Last.Sending := ⟨by unfold State.Running; decide, rfl⟩
theorem test_sending_win8Last : win8Last.Sending := ⟨by unfold State.Running; decide, rfl⟩
theorem test_sending_soWait : soWait.Sending := ⟨by unfold State.Running; decide, rfl⟩
theorem test_sending_soDone : soDone.Sending := ⟨by unfold State.Running; decide, rfl⟩
theorem test_sending_win128Last : win128Last.Sending := ⟨by unfold State.Running; decide, rfl⟩
theorem test_receiving_rcvWin : rcvWin.Receiving := ⟨by unfold State.Running; decide, rfl⟩
theorem test_receiving_rcvSo : rcvSo.Receiving := ⟨by unfold State.Running; decide, rfl⟩
theorem test_receiving_rcvDone : rcvDone.Receiving := ⟨by unfold State.Running; decide, rfl⟩

/-- A windowed sender with two frames outstanding satisfies the window and the timer invariants. -/
def win4Two : State :=
  { win4 with sNext := 2, sStarted := true, tArmed := true, tCnt := 40, out := [[0x00, 0xFF], [0x01, 0xFE]] }

theorem test_regInv_win4Two : RegInv win4Two := by constructor <;> decide

theorem test_windowInv_win4Two : WindowInv win4Two := by
  refine ⟨by decide, fun i f h => ?_⟩
  match i, h with
  | 0, h => cases h; exact ⟨0, false, [], by decide, by decide, by decide⟩
  | 1, h => cases h; exact ⟨1, false, [], by decide, by decide, by decide⟩

/-- The same with a window of two: it is full. -/
def win2Two : State := { win4Two with w := 2 }

theorem test_regInv_win2Two : RegInv win2Two := by constructor <;> decide

theorem test_timerInv_win4Two : TimerInv win4Two := ⟨by decide, by decide⟩
theorem test_timerInv_soDone : TimerInv soDone := ⟨by decide, by decide⟩

/-! ## Witnesses: the hypotheses of each statement, met together by concrete values -/

theorem test_witness_StepRunsDecodedInstruction :
    { win4 with inputs := [.event [0x42]] }.inputs = .event [0x42] :: [] ∧
      decodeTxn { win4 with inputs := [.event [0x42]] }.mode (.event [0x42]) = .ok .tmrTick := by decide
theorem test_witness_StepRuns_sub :
    { win4 with inputs := [.call [0x40]] }.inputs = .call [0x40] :: [] ∧
      decodeTxn { win4 with inputs := [.call [0x40]] }.mode (.call [0x40]) = .ok .tmrStart ∧ Instr.tmrStart.isSub = true ∧
      Instr.tmrTick.isSub = false := by decide
theorem test_witness_DecodeOfEncode :
    (Instr.frameW true 127 0 (List.replicate 126 0xFF) true).WellFormed = true ∧
      (Instr.frameW true 127 0 (List.replicate 126 0xFF) true).readIn .win = true := by
  simp [Instr.WellFormed, Instr.readIn, Config.maxDgram]
theorem test_witness_DecodeOfEncode_reset :
    (Instr.reset .sender .win 255 0).WellFormed = true ∧ (Instr.reset .sender .win 255 0).readIn .so = true := by decide
theorem test_witness_DecodedIsWellFormed : decodeTxn .so (.call [0x12, 1, 1]) = .ok (.encS 1 [] true) := by decide
theorem test_witness_FrameDecodeLosesNothing :
    decodeTxn .so (.rx [0xFF, 0x00] true) = .ok (.frameS 127 1 0 [] true) := by decide
theorem test_witness_Reserved :
    (0xFF : Byte).toNat ∉ [0x00, 0x01, 0x02, 0x10, 0x11, 0x12, 0x13, 0x14, 0x20, 0x21, 0x22, 0x30, 0x31, 0x40, 0x41, 0x42,
      0x43, 0x50] ∧ { win4 with inputs := [.event [0xFF]] }.inputs = .event (0xFF :: []) :: [] := by decide
theorem test_witness_Reserved_call :
    (0x15 : Byte).toNat ∉ [0x00, 0x01, 0x02, 0x10, 0x11, 0x12, 0x13, 0x14, 0x20, 0x21, 0x22, 0x30, 0x31, 0x40, 0x41, 0x42,
      0x43, 0x50] ∧ { win4 with inputs := [.call [0x15]] }.inputs = .call (0x15 :: []) :: [] := by decide
theorem test_witness_WrongRole : rcvWin.Receiving ∧ win4.Sending ∧ exec (.inWin 0 1 0) rcvWin = .refused .wrongRole :=
  ⟨test_receiving_rcvWin, test_sending_win4, rfl⟩
theorem test_witness_NotEnabled :
    win4Full.Sending ∧ ¬ (win4Full.outCnt < win4Full.weff ∧ win4Full.sEof = false) ∧
      ¬ (win4Full.tArmed = true ∧ win4Full.tCnt = 0) := ⟨test_sending_win4Full, by decide⟩
theorem test_witness_NotEnabled_ack : win4.Sending ∧ ([] : Datagram).length ≤ 128 ∧ win4.phase ≠ .wait :=
  ⟨test_sending_win4, by decide⟩

theorem test_witness_Cksum : win4.Running ∧ 2 ≤ ([0x00, 0x00] : Datagram).length := ⟨test_sending_win4.1, by decide⟩
theorem test_witness_EncW : win4.Running ∧ (List.replicate 124 (0 : Byte)).length ≤ 124 := ⟨test_sending_win4.1, by simp⟩
theorem test_witness_EncS :
    rcvSo.Running ∧ (1 : Seq).toNat < 2 ∧ (List.replicate 124 (0 : Byte)).length ≤ 124 := ⟨test_receiving_rcvSo.1, by simp⟩
theorem test_witness_Dec_short : win4.Running ∧ ([0x00] : Datagram).length ≤ 128 ∧ ([0x00] : Datagram).length < 2 :=
  ⟨test_sending_win4.1, by decide⟩
theorem test_witness_Dec_corrupt :
    win4.Running ∧ ([0x00, 0xFE] : Datagram).length ≤ 128 ∧ 2 ≤ ([0x00, 0xFE] : Datagram).length ∧ natSum [0x00, 0xFE] % 256 ≠ 255 :=
  ⟨test_sending_win4.1, by decide⟩
theorem test_witness_Dec_ok :
    win4.Running ∧ ([0x00, 0xFF] : Datagram).length ≤ 128 ∧ ([0x00, 0xFF] : Datagram) = 0x00 :: 0xFF :: [] ∧
      natSum [0x00, 0xFF] % 256 = 255 := ⟨test_sending_win4.1, by decide⟩
theorem test_witness_CodecRoundTrip :
    decodeW [0xFF, 0x00] = .ok 127 true [] ∧ decodeS [0x01, 0xFE] = .ok 1 true [] ∧ decodeS [0x03, 0xFC] = .ok 1 true [] := by
  decide
theorem test_witness_SingleByteChange :
    ValidFrame [0x05, 0x29, 0x68, 0x69] ∧ 3 < ([0x05, 0x29, 0x68, 0x69] : Datagram).length ∧
      ([0x05, 0x29, 0x68, 0x69] : Datagram)[3]? ≠ some 0x6A := by decide
theorem test_witness_AckFrameBytes : (1 : Seq).toNat < modulus .so ∧ (127 : Seq).toNat < modulus .win := by decide

theorem test_witness_SeqInc :
    win4.Running ∧ (127 : Seq).toNat < win4.n ∧ State.reset.Running ∧ (1 : Seq).toNat < State.reset.n :=
  ⟨test_sending_win4.1, by decide, test_sending_reset.1, by decide⟩
theorem test_witness_SeqOff : win4.Running ∧ (126 : Seq).toNat < win4.n ∧ (1 : Seq).toNat < win4.n :=
  ⟨test_sending_win4.1, by decide⟩
theorem test_witness_InWin :
    win4.Sending ∧ (100 : Seq).toNat < win4.n ∧ 128 ≤ win4.n ∧ (99 : Seq).toNat < win4.n := ⟨test_sending_win4, by decide⟩
theorem test_witness_OutsideRange :
    rcvWin.Running ∧ win4.Running ∧ ([0x00] : Datagram).length < 2 ∧ 124 < (List.replicate 125 (0 : Byte)).length ∧
      2 ≤ (2 : Seq).toNat ∧ 128 < (List.replicate 129 (0 : Byte)).length :=
  ⟨test_receiving_rcvWin.1, test_sending_win4.1, by simp⟩
theorem test_witness_OutsideRange_seq : rcvSo.Running ∧ rcvSo.n ≤ (2 : Seq).toNat := ⟨test_receiving_rcvSo.1, by decide⟩
theorem test_witness_OutsideRange_inWin :
    win4.Sending ∧ win4.n < 129 ∧ State.reset.Sending ∧ State.reset.n ≤ (2 : Seq).toNat :=
  ⟨test_sending_win4, by decide, test_sending_reset, by decide⟩
theorem test_witness_OutsideRange_long :
    128 < (List.replicate 129 (0 : Byte)).length ∧ win4.Sending ∧ rcvWin.Receiving ∧
      { win4 with inputs := [.rx (List.replicate 129 0) false] }.inputs = .rx (List.replicate 129 0) false :: [] :=
  ⟨by simp, test_sending_win4, test_receiving_rcvWin, rfl⟩
theorem test_witness_FunctionsChangeOnlyTheResult : ∃ t, exec (.seqInc 127) win4 = .next t := ⟨_, rfl⟩

theorem test_witness_SndSend :
    win4.Sending ∧ win4.outCnt < win4.weff ∧ win4.sEof = false ∧ win4.sNext.toNat < win4.n := ⟨test_sending_win4, by decide⟩
theorem test_witness_SndSend_so :
    State.reset.Sending ∧ State.reset.outCnt < State.reset.weff ∧ State.reset.sEof = false ∧
      State.reset.sNext.toNat < State.reset.n := ⟨test_sending_reset, by decide⟩
theorem test_witness_SourceMakesChunks_read :
    ([List.replicate 123 0] : List (List Byte)).length ≤ 1 ∧ (readSource 124 [List.replicate 123 0]).1.length < 124 := by
  simp [readSource]
theorem test_witness_SourceMakesChunks : 1 < (List.replicate 250 (0 : Byte)).length / 124 := by
  rw [List.length_replicate]
  decide
theorem test_witness_SndAckAccepted :
    win4Full.Sending ∧ win4Full.phase = .wait ∧ ([0x01, 0xFE] : Datagram).length ≤ 128 ∧
      dec win4Full.mode [0x01, 0xFE] = .ok 1 false [] ∧
      3 = ((1 : Seq).toNat + win4Full.n - win4Full.sBase.toNat) % win4Full.n ∧ 3 < win4Full.weff :=
  ⟨test_sending_win4Full, by decide⟩
/-- The clause on who leaves: two frames outstanding in a full window of two, the first one acknowledged. -/
theorem test_witness_SndAckAccepted_leaves :
    win2Two.Sending ∧ win2Two.phase = .wait ∧ ([0x00, 0xFF] : Datagram).length ≤ 128 ∧
      dec win2Two.mode [0x00, 0xFF] = .ok 0 false [] ∧
      0 = ((0 : Seq).toNat + win2Two.n - win2Two.sBase.toNat) % win2Two.n ∧ 0 < win2Two.weff ∧
      RegInv win2Two ∧ WindowInv win2Two ∧ win2Two.out[1]? = some [0x01, 0xFE] ∧
      dec win2Two.mode [0x01, 0xFE] = .ok 1 false [] :=
  ⟨test_sending_win4, by decide, by decide, by decide, by decide, by decide, test_regInv_win2Two,
    ⟨test_windowInv_win4Two.next, test_windowInv_win4Two.entries⟩, by decide, by decide⟩
theorem test_witness_SndAckAccepted_so :
    soWait.Sending ∧ soWait.phase = .wait ∧ ([0x00, 0xFF] : Datagram).length ≤ 128 ∧
      dec soWait.mode [0x00, 0xFF] = .ok 0 true [] ∧
      0 = ((0 : Seq).toNat + soWait.n - soWait.sBase.toNat) % soWait.n ∧ 0 < soWait.weff := ⟨test_sending_soWait, by decide⟩
theorem test_witness_SndAckIgnored_corrupt :
    win4Full.Sending ∧ win4Full.phase = .wait ∧ ([0x00, 0xFE] : Datagram).length ≤ 128 ∧
      dec win4Full.mode [0x00, 0xFE] = .corrupt .cksum := ⟨test_sending_win4Full, by decide⟩
theorem test_witness_SndAckIgnored_outside :
    win4Full.Sending ∧ win4Full.phase = .wait ∧ ([0x02, 0xFD] : Datagram).length ≤ 128 ∧
      dec win4Full.mode [0x02, 0xFD] = .ok 2 false [] ∧
      win4Full.weff ≤ ((2 : Seq).toNat + win4Full.n - win4Full.sBase.toNat) % win4Full.n :=
  ⟨test_sending_win4Full, by decide⟩
/-- Twice the ack of the third of four outstanding frames; the window is below `N - 1`. -/
theorem test_witness_RepeatedAck :
    win4Last.Sending ∧ RegInv win4Last ∧ dec win4Last.mode [0x00, 0xFF] = .ok 0 false [] ∧
      seqOff win4Last.n win4Last.sBase 0 < win4Last.weff ∧
      ∃ t, exec (.sndAck [0x00, 0xFF]) win4Last = .next t ∧ t.weff ≤ t.n - 1 ∧ t.phase = .wait :=
  ⟨test_sending_win4Last, test_regInv_win4Last, by decide, by decide, _, rfl, by decide⟩
/-- Twice the same ack with the widest window. -/
theorem test_witness_RepeatedAck_widest :
    win128Last.Sending ∧ RegInv win128Last ∧ dec win128Last.mode [0x00, 0xFF] = .ok 0 false [] ∧
      seqOff win128Last.n win128Last.sBase 0 < win128Last.weff ∧
      ∃ t, exec (.sndAck [0x00, 0xFF]) win128Last = .next t ∧ t.weff = t.n ∧ t.phase = .wait :=
  ⟨test_sending_win128Last, test_regInv_win128Last, by decide, by decide, _, rfl, by decide⟩
/-- Twice the same ack in mode SO, where the window is just `N - 1` and the first copy leaves WAIT. -/
theorem test_witness_RepeatedAck_so :
    soWait.Sending ∧ RegInv soWait ∧ dec soWait.mode [0x00, 0xFF] = .ok 0 true [] ∧
      seqOff soWait.n soWait.sBase 0 < soWait.weff ∧
      ∃ t, exec (.sndAck [0x00, 0xFF]) soWait = .next t ∧ t.weff = t.n - 1 ∧ t.phase ≠ .wait :=
  ⟨test_sending_soWait, test_regInv_soWait, by decide, by decide, _, rfl, by decide⟩
theorem test_witness_UnsentAck :
    win8Last.Sending ∧ RegInv win8Last ∧ win8Last.fAckUnsent = false ∧
      ∃ t, exec (.sndAck [0x05, 0xFA]) win8Last = .next t ∧ t.fAckUnsent = true :=
  ⟨test_sending_win8Last, test_regInv_win8Last, by decide, _, rfl, by decide⟩
theorem test_witness_Window128 :
    win128Last.Sending ∧ win128Last.mode = .win ∧ win128Last.w.toNat = 128 ∧ win128Last.outCnt ≤ 128 ∧
      win128Last.phase = .wait ∧ ([0x7F, 0x80] : Datagram).length ≤ 128 ∧
      dec win128Last.mode [0x7F, 0x80] = .ok 127 false [] ∧ (127 : Seq) = win128Last.sBase - 1 :=
  ⟨test_sending_win128Last, by decide⟩
theorem test_witness_SenderFrame :
    (∃ t, exec .sndSend win4 = .next t) ∧ (∃ t, exec (.sndAck [0x00, 0xFF]) win4Full = .next t) ∧
      (∃ t, exec .tmrTick win4Full = .next t) ∧ ∃ t, exec .tmrFire { win4Full with tCnt := 0 } = .next t :=
  ⟨⟨_, rfl⟩, ⟨_, rfl⟩, ⟨_, rfl⟩, _, rfl⟩
theorem test_witness_PhaseTransitions :
    win4Full.Sending ∧ (∃ t, exec (.sndAck [0x00, 0xFF]) win4Full = .next t) ∧ (∃ t, exec .close win4Full = .next t) ∧
      ∃ t, exec .chFail win4Full = .next t := ⟨test_sending_win4Full, ⟨_, rfl⟩, ⟨_, rfl⟩, _, rfl⟩
theorem test_witness_PhaseTransitions_send : win4.Sending ∧ ∃ t, exec .sndSend win4 = .next t := ⟨test_sending_win4, _, rfl⟩
theorem test_witness_DoneIsSilent : soDone.Sending ∧ soDone.TimerOk ∧ soDone.phase = .done :=
  ⟨test_sending_soDone, fun _ => ⟨test_regInv_soDone, fun _ => test_timerInv_soDone⟩, by decide⟩

theorem test_witness_TmrFire :
    { win8Last with tCnt := 0 }.Sending ∧ { win8Last with tCnt := 0 }.tArmed = true ∧ { win8Last with tCnt := 0 }.tCnt = 0 :=
  ⟨test_sending_win8Last, by decide⟩
theorem test_witness_TmrFire_refused : win4.Sending ∧ win4.tArmed = false ∧ win4Full.Sending ∧ 0 < win4Full.tCnt :=
  ⟨test_sending_win4, by decide, test_sending_win4Full, by decide⟩

theorem test_witness_RcvFrameAccepted :
    rcvWin.Receiving ∧ rcvWin.rState = .awaitingFrame ∧ ([0x00, 0x2E, 0x68, 0x69] : Datagram).length ≤ 128 ∧
      dec rcvWin.mode [0x00, 0x2E, 0x68, 0x69] = .ok 0 false [0x68, 0x69] ∧ rcvWin.rLast.toNat < rcvWin.n ∧
      (rcvWin.mode = .win → (0 : Seq).toNat = (rcvWin.rLast.toNat + 1) % 128) ∧
      (rcvWin.mode = .so → rcvWin.rFirst = true ∨ (0 : Seq) ≠ rcvWin.rLast) := ⟨test_receiving_rcvWin, by decide⟩
theorem test_witness_RcvFrameAccepted_so :
    rcvSo.Receiving ∧ rcvSo.rState = .awaitingFrame ∧ ([0x01, 0xFE] : Datagram).length ≤ 128 ∧
      dec rcvSo.mode [0x01, 0xFE] = .ok 1 true [] ∧ rcvSo.rLast.toNat < rcvSo.n ∧
      (rcvSo.mode = .win → (1 : Seq).toNat = (rcvSo.rLast.toNat + 1) % 128) ∧
      (rcvSo.mode = .so → rcvSo.rFirst = true ∨ (1 : Seq) ≠ rcvSo.rLast) := ⟨test_receiving_rcvSo, by decide⟩
theorem test_witness_RcvFrameReacknowledged :
    rcvWin.Receiving ∧ rcvWin.rState = .awaitingFrame ∧ ([0x05, 0x29, 0x68, 0x69] : Datagram).length ≤ 128 ∧
      dec rcvWin.mode [0x05, 0x29, 0x68, 0x69] = .ok 5 false [0x68, 0x69] ∧ rcvWin.rLast.toNat < rcvWin.n ∧
      (rcvWin.mode = .win → (5 : Seq).toNat ≠ (rcvWin.rLast.toNat + 1) % 128) ∧
      (rcvWin.mode = .so → rcvWin.rFirst = false ∧ (5 : Seq) = rcvWin.rLast) := ⟨test_receiving_rcvWin, by decide⟩
theorem test_witness_RcvFrameReacknowledged_so :
    { rcvSo with rFirst := false }.Receiving ∧ dec .so [0x01, 0xFE] = .ok 1 true [] ∧
      { rcvSo with rFirst := false }.rFirst = false ∧ (1 : Seq) = { rcvSo with rFirst := false }.rLast :=
  ⟨test_receiving_rcvSo, by decide⟩
theorem test_witness_RcvFrameIgnored :
    rcvDone.Receiving ∧ rcvDone.rState = .complete ∧ rcvWin.Receiving ∧ dec rcvWin.mode [0x00] = .corrupt .short :=
  ⟨test_receiving_rcvDone, by decide, test_receiving_rcvWin, by decide⟩
theorem test_witness_OneAck :
    (∃ t, exec (.rcvFrame [0x00, 0xFF] false) rcvWin = .next t) ∧ rcvWin.rState = .awaitingFrame ∧ ValidFrame [0x00, 0xFF] :=
  ⟨⟨_, rfl⟩, by decide⟩
theorem test_witness_ReceiverFrame : ∃ t, exec (.rcvFrame [0x00, 0xFF] true) rcvDone = .next t := ⟨_, rfl⟩

/-- The one-chunk transfer of one byte: nothing accepted yet, and its only frame. -/
theorem test_witness_Delivers :
    Chunked [[0x41]] ∧ Delivered [[0x41]] [] 0 rcvWin ∧ (dataFrame .win [[0x41]] 0).length ≤ 128 ∧
      Admissible .win [[0x41]] 0 (dataFrame .win [[0x41]] 0) ∧ dataFrame .win [[0x41]] 0 = [0x80, 0x3E, 0x41] := by
  refine ⟨⟨by decide, fun k p h => ?_⟩, ?_, by decide, ?_, by decide⟩
  · match k, h with
    | 0, h => cases h; exact .inr (by decide)
  · exact ⟨test_receiving_rcvWin, by decide, by decide, by decide, by decide, by decide, by decide, by decide⟩
  · exact .inr ⟨0, by decide, by decide, by decide, rfl⟩

/-- What the sink has got is what was written. -/
theorem test_writes_map (l : List (List Byte)) :
    writes (l.map .sinkWrite) = l ∧ closes (l.map .sinkWrite) = 0 := by
  induction l with
  | nil => exact ⟨rfl, rfl⟩
  | cons p l ih => exact ⟨congrArg (p :: ·) ih.1, ih.2⟩

/-- A transfer of `n` full chunks and an empty last one. -/
def fullChunks (n : Nat) : List (List Byte) := List.replicate n (List.replicate 124 0) ++ [[]]

theorem test_chunked_fullChunks (n : Nat) : Chunked (fullChunks n) := by
  refine ⟨by simp [fullChunks], fun k p h => ?_⟩
  unfold fullChunks at h ⊢
  rcases Nat.lt_trichotomy k n with hk | hk | hk
  · rw [List.getElem?_append_left (by simpa using hk), List.getElem?_replicate, if_pos hk] at h
    cases h
    exact .inl (by simpa using hk)
  · subst hk
    rw [List.getElem?_append_right (by simp)] at h
    simp only [List.length_replicate, Nat.sub_self, List.getElem?_cons_zero, Option.some.injEq] at h
    subst h
    exact .inr (by simp)
  · rw [List.getElem?_eq_none (by simpa using hk)] at h
    cases h

/-- Each frame of it can be presented at the RX port (R101). -/
theorem test_dataFrame_fullChunks (m : Mode) (n k : Nat) : (dataFrame m (fullChunks n) k).length ≤ 128 := by
  unfold dataFrame
  rw [enc_length, List.getD_eq_getElem?_getD]
  cases h : (fullChunks n)[k]? with
  | none => simp
  | some p =>
    rcases (test_chunked_fullChunks n).2 k p h with ⟨hp, -⟩ | ⟨hp, -⟩ <;> simp only [Option.getD_some] <;> omega

/-- A receiver that has accepted the first `c` chunks of such a transfer, `c` not 0 and not all. -/
def accepted (s : State) (n c : Nat) : State :=
  { s with log := ((fullChunks n).take c).map .sinkWrite, rLast := BitVec.ofNat 7 (c - 1), rFirst := false }

/-- The two edges of Admissible in mode WIN: 127 chunks accepted and the first one presented again; none accepted and the
127th presented. -/
theorem test_witness_Delivers_edges :
    Chunked (fullChunks 127) ∧ Delivered (fullChunks 127) [] 127 (accepted rcvWin 127 127) ∧
      Admissible .win (fullChunks 127) 127 (dataFrame .win (fullChunks 127) 0) ∧
      Delivered (fullChunks 127) [] 0 rcvWin ∧ Admissible .win (fullChunks 127) 0 (dataFrame .win (fullChunks 127) 126) := by
  have hn : (fullChunks 127).length = 128 := by simp [fullChunks]
  have hw := test_writes_map ((fullChunks 127).take 127)
  refine ⟨test_chunked_fullChunks 127, ?_, .inr ⟨0, by omega, by decide, by decide, rfl⟩, ?_,
    .inr ⟨126, by omega, by decide, by decide, rfl⟩⟩
  · exact ⟨test_receiving_rcvWin, rfl, by omega, hw.1, by rw [hn]; exact hw.2, by decide, by decide, by rw [hn]; decide⟩
  · exact ⟨test_receiving_rcvWin, rfl, by omega, rfl, by rw [hn]; rfl, by decide, by decide, by rw [hn]; decide⟩

/-- The two edges in mode SO: the chunk just accepted presented again, and the next one. -/
theorem test_witness_Delivers_edges_so :
    Chunked (fullChunks 1) ∧ Delivered (fullChunks 1) [] 1 (accepted rcvSo 1 1) ∧
      Admissible .so (fullChunks 1) 1 (dataFrame .so (fullChunks 1) 0) ∧
      Admissible .so (fullChunks 1) 1 (dataFrame .so (fullChunks 1) 1) := by
  have hn : (fullChunks 1).length = 2 := rfl
  have hw := test_writes_map ((fullChunks 1).take 1)
  refine ⟨test_chunked_fullChunks 1, ?_, .inr ⟨0, by omega, by decide, by decide, rfl⟩,
    .inr ⟨1, by omega, by decide, by decide, rfl⟩⟩
  exact ⟨test_receiving_rcvSo, rfl, by omega, hw.1, by rw [hn]; exact hw.2, by decide, by decide, by rw [hn]; decide⟩

/-- The next frame, presented there, ends the transfer; dropped by the loss hook it does not. -/
theorem test_witness_Delivers_end :
    ∃ t u, exec (.rcvFrame [0x80, 0x3E, 0x41] false) rcvWin = .next t ∧ t.fin = true ∧ sinkContent t.log = [0x41] ∧
      exec (.rcvFrame [0x80, 0x3E, 0x41] true) rcvWin = .next u ∧ u.fin = false := ⟨_, _, rfl, by decide, by decide, rfl, by decide⟩

theorem test_witness_Reset :
    (Mode.win = .win → 1 ≤ 128 ∧ 128 ≤ 128) ∧ (Role.sender = .sender → 1 ≤ 1) := by decide
theorem test_witness_Reset_refused :
    (Mode.win = .win ∧ ¬ (1 ≤ 129 ∧ 129 ≤ 128)) ∧ (Mode.win = .win ∧ ¬ (1 ≤ 0 ∧ 0 ≤ 128)) ∧ (Role.sender = .sender ∧ 0 < 1) := by
  decide
theorem test_witness_OnlyResetLeaves :
    ¬ absent.Running ∧ absent.live = false ∧ ¬ ended.Running ∧ ended.live = true ∧ Instr.close.isFrame = false ∧
      ∀ r m w t, Instr.close ≠ .reset r m w t := by
  refine ⟨?_, rfl, ?_, rfl, rfl, by simp⟩ <;> unfold State.Running <;> decide
theorem test_witness_Frames : rcvWin.Receiving ∧ win4.Sending ∧ ¬ ended.Running ∧ (List.replicate 126 (0 : Byte)).length ≤ 126 :=
  ⟨test_receiving_rcvWin, test_sending_win4, by unfold State.Running; decide, by simp⟩
theorem test_witness_Frames_phases : win4Full.phase = .wait ∧ win4.phase ≠ .wait := by decide

/-- A receiver with two datagrams in flight each way, and something presented. -/
def rcvFlight (a : ChanAct) : State :=
  { rcvWin with chIn := [[0x00, 0xFF], [0x01, 0xFE]], chOut := [[0x7F, 0x80], [0x00, 0xFF]], inputs := [.channel a] }

/-- Each act at the last position in flight, and at the first position where nothing is. -/
theorem test_witness_ChannelActs :
    (rcvFlight (.leave .fromPeer 1)).inputs = .channel (.leave .fromPeer 1) :: [] ∧
      ((rcvFlight (.leave .fromPeer 1)).flight .fromPeer)[1]? = some [0x01, 0xFE] ∧
      ((rcvFlight (.corrupt .toPeer 1 0 0xFF)).flight .toPeer)[1]? = some [0x00, 0xFF] ∧
      ((rcvFlight (.shorten .toPeer 2 0)).flight .toPeer).length ≤ 2 ∧
      ((rcvFlight (.duplicate .fromPeer 2)).flight .fromPeer).length ≤ 2 ∧
      (rcvFlight (.present 2 false)).chIn.length ≤ 2 ∧ (∀ i drop, ChanAct.leave .fromPeer 1 ≠ .present i drop) ∧
      ∃ t, step (rcvFlight (.leave .fromPeer 1)) = .next t ∧ t.chIn = [[0x00, 0xFF]] :=
  ⟨rfl, by decide, by decide, by decide, by decide, by decide, by simp, _, rfl, by decide⟩
theorem test_channel_corrupt :
    after (rcvFlight (.present 0 false)) (.channel (.corrupt .toPeer 1 0 0x01))
      (fun u => u.chOut = [[0x7F, 0x80], [0x01, 0xFF]] ∧ u.chIn.length = 2) = true := by decide
theorem test_channel_shorten :
    after (rcvFlight (.present 0 false)) (.channel (.shorten .fromPeer 0 1)) (fun u => u.chIn = [[0x00], [0x01, 0xFE]]) = true := by
  decide
theorem test_witness_PresentedDatagram :
    (rcvFlight (.present 1 true)).inputs = .channel (.present 1 true) :: [] ∧
      (rcvFlight (.present 1 true)).chIn[1]? = some [0x01, 0xFE] := by decide
theorem test_witness_PresentedDatagram_short :
    { rcvWin with inputs := [.rx [0x00] false] }.Receiving ∧ { win4Full with inputs := [.rx [] false] }.Sending ∧
      { win4Full with inputs := [.rx [] false] }.phase = .wait ∧ { win4 with inputs := [.rx [0x00] false] }.Sending ∧
      { win4 with inputs := [.rx [0x00] false] }.phase ≠ .wait ∧ ([0x00] : Datagram).length < 2 :=
  ⟨test_receiving_rcvWin, test_sending_win4Full, by decide, test_sending_win4, by decide⟩

/-- A pair with one data frame and one ack in flight. -/
def pair : Net := { sender := { win4Full with chOut := [[0x00, 0xFF]] }, receiver := { rcvWin with chOut := [[0x7F, 0x80]] } }

theorem test_witness_Instances :
    (∃ m, pair.step (.atSender (.event [0x42])) = some m) ∧ (∃ m, pair.step (.atReceiver (.event [0x01])) = some m) ∧
      (∃ m, pair.step (.carryData 0) = some m ∧ m.receiver.chIn = [[0x00, 0xFF]]) ∧
      (∃ m, pair.step (.carryAck 0) = some m ∧ m.sender.chIn = [[0x7F, 0x80]]) ∧ pair.step (.carryAck 1) = none :=
  ⟨⟨_, rfl⟩, ⟨_, rfl⟩, ⟨_, rfl, by decide⟩, ⟨_, rfl, by decide⟩, rfl⟩

theorem test_witness_StepKeepsRegisters :
    win4Full.RegsOk ∧ ∃ t, step { win4Full with inputs := [.event [0x42]] } = .next t := ⟨fun _ => test_regInv_win4Full, _, rfl⟩
theorem test_witness_StepKeepsWindow : win4Two.WindowOk ∧ ∃ t, step win4Two = .next t :=
  ⟨fun _ => ⟨test_regInv_win4Two, fun _ => test_windowInv_win4Two⟩, _, rfl⟩
theorem test_witness_StepKeepsTimer :
    win4Two.TimerOk ∧ ∃ t, step win4Two = .next t :=
  ⟨fun _ => ⟨test_regInv_win4Two, fun _ => test_timerInv_win4Two⟩, _, rfl⟩
theorem test_witness_NothingIsSent :
    ended.live = true ∧ ended.closed = true ∧ ∃ t, step ended = .next t := ⟨rfl, rfl, _, rfl⟩
theorem test_witness_OnlyResetReconfigures :
    (∀ r m w t, Instr.chFail ≠ .reset r m w t) ∧ ∃ t, exec .chFail win4Full = .next t ∧ t.failed = true :=
  ⟨by simp, _, rfl, rfl⟩
theorem test_witness_OwnersOfOut :
    (∃ t, exec .sndSend win4Two = .next t ∧ t.outCnt = 3) ∧ (∃ t, exec .tmrTick win4Full = .next t) ∧
      (∃ t, exec (.sndAck [0x00, 0xFF]) win4Last = .next t ∧ win4Last.sEof = true) ∧
      ∃ t, exec (.frameW false 0 0xFF [] false) rcvWin = .next t ∧ rcvWin.role = .receiver :=
  ⟨⟨_, rfl, by decide⟩, ⟨_, rfl⟩, ⟨_, rfl, rfl⟩, _, rfl, rfl⟩
theorem test_witness_CompleteIsTerminal :
    (∀ r m w t, Instr.rcvFrame [0x82, 0x7D] false ≠ .reset r m w t) ∧
      ∃ t, exec (.rcvFrame [0x82, 0x7D] false) rcvDone = .next t ∧ rcvDone.rState = .complete := ⟨by simp, _, rfl, rfl⟩

end Sys2Proof.Tests
end

