-- ==== Sys2Proof/Proofs/Delivery.lean ====
section
/-! O40. The receiver's half of R211: the number in an admissible data frame tells the next frame from every other one, so each
RCV.FRAME takes the delivered part of the transfer one chunk further or leaves it as it is. -/

namespace Sys2Proof.Machine

variable {chunks : List (List Byte)} {log0 : List PortAct} {c k : Nat} {s : State} {d : Datagram} {drop : Bool}

/-! ## Data frames -/

/-- Only the last chunk is short (R69). -/
theorem Chunked.short_iff_last (h : Chunked chunks) (hk : k < chunks.length) :
    (chunks.getD k []).length < 124 ↔ k + 1 = chunks.length := by
  rw [List.getD_eq_getElem _ _ hk]
  have := h.2 k chunks[k] (List.getElem?_eq_getElem hk)
  omega

theorem mod_modulus_lt (m : Mode) (k : Nat) : k % modulus m < modulus m :=
  Nat.mod_lt _ (Nat.zero_lt_of_lt (modulus_le m).1)

/-- The sequence number that data frame `k` carries (R151). -/
def frameNumber (m : Mode) (k : Nat) : Seq := BitVec.ofNat 7 (k % modulus m)

@[simp] theorem frameNumber_toNat (m : Mode) (k : Nat) : (frameNumber m k).toNat = k % modulus m :=
  Nat.mod_eq_of_lt (Nat.lt_of_lt_of_le (mod_modulus_lt m k) (modulus_le m).2)

/-- DEC of data frame `k`: its number modulo `N`, whether it is the last, and its chunk (R126, R152). -/
theorem dec_dataFrame (m : Mode) (h : Chunked chunks) (hk : k < chunks.length) :
    dec m (dataFrame m chunks k) = .ok (frameNumber m k) (k + 1 = chunks.length) (chunks.getD k []) := by
  have hq : (frameNumber m k).toNat < modulus m := frameNumber_toNat m k ▸ mod_modulus_lt m k
  simpa only [dataFrame, frameNumber, h.short_iff_last hk] using dec_enc m _ (chunks.getD k []) hq

/-- Data frames less than `N` apart differ (R266, R268). -/
theorem dataFrame_inj {m : Mode} (h : Chunked chunks) (hk : k < chunks.length) (hc : c < chunks.length)
    (hb : c < k + modulus m) (hf : k < c + modulus m) (he : dataFrame m chunks k = dataFrame m chunks c) : k = c := by
  have hd := congrArg (dec m) he
  rw [dec_dataFrame m h hk, dec_dataFrame m h hc, Decoded.ok.injEq] at hd
  have hn : k % modulus m = c % modulus m := by simpa using congrArg BitVec.toNat hd.1
  cases m <;> simp only [modulus] at * <;> omega

/-! ## One RCV.FRAME -/

/-- Before the end not all chunks are there (R40). -/
theorem Delivered.lt_of_awaiting (h : Delivered chunks log0 c s) (hs : s.rState = .awaitingFrame) :
    c < chunks.length := by
  have hne : c ≠ chunks.length := fun e => by simp [h.complete.mpr e] at hs
  exact Nat.lt_of_le_of_ne h.count hne

/-- The accept test of either mode singles out the next frame (R203, R205). -/
theorem Delivered.accepts_iff (h : Delivered chunks log0 c s) (hb : c < k + modulus s.mode)
    (hf : k + 1 < c + modulus s.mode) : s.accepts (frameNumber s.mode k) = true ↔ k = c := by
  have hcur : s.rLast.toNat = (c + modulus s.mode - 1) % modulus s.mode := h.cursor
  have hlt : s.rLast.toNat < s.n := hcur ▸ mod_modulus_lt _ _
  have hnum := frameNumber_toNat s.mode k
  cases hm : s.mode with
  | win =>
    rw [hm] at hb hf hcur hnum
    rw [accepts_win hm hlt, hnum, hcur]
    simp only [modulus] at hb hf ⊢
    omega
  | so =>
    rw [hm] at hb hf hcur hnum
    rw [accepts_so hm, h.first, Ne, BitVec.toNat_inj.symm, hnum, hcur]
    simp only [modulus] at hb hf ⊢
    omega

/-- Handing an ack to TX delivers nothing. -/
theorem Delivered.tx (h : Delivered chunks log0 c s) (a : Datagram) : Delivered chunks log0 c (s.tx a) where
  receiving := h.receiving
  intact := h.intact
  count := h.count
  written := by simpa [writes_append, writes] using h.written
  closed := by simpa [closes_append, closes] using h.closed
  first := h.first
  cursor := h.cursor
  complete := h.complete

/-- Accepting the next frame delivers one chunk more, and closes the sink exactly with the last one. -/
theorem Delivered.acceptFrame (h : Delivered chunks log0 c s) (hs : s.rState = .awaitingFrame) :
    Delivered chunks log0 (c + 1)
      (s.acceptFrame (frameNumber s.mode c) (c + 1 = chunks.length) (chunks.getD c [])) := by
  have hc := h.lt_of_awaiting hs
  have hw := h.written
  have hcl := h.closed
  rw [if_neg (Nat.ne_of_lt hc)] at hcl
  rw [State.acceptFrame_eq _ _ _ _ hs, List.getD_eq_getElem _ _ hc]
  refine ⟨h.receiving, h.intact, hc, ?written, ?closed, by simp, by simp [State.n], ?complete⟩
  case written => split <;> simp [writes_append, writes, hw]
  case closed => by_cases hl : c + 1 = chunks.length <;> simp [closes_append, closes, hcl, hl]
  case complete => by_cases hl : c + 1 = chunks.length <;> simp [hl]

/-- The datagram is the next frame of the transfer, and the loss hook lets it through (R201). -/
def IsNextFrame (mode : Mode) (chunks : List (List Byte)) (c : Nat) (d : Datagram) (drop : Bool) : Prop :=
  drop = false ∧ c < chunks.length ∧ d = dataFrame mode chunks c

/-- What RCV.FRAME ignores is not the next frame. -/
theorem Delivered.not_isNextFrame (hc : Chunked chunks) (h : Delivered chunks log0 c s)
    (hi : s.rState = .complete ∨ drop = true ∨ ∃ e, dec s.mode d = .corrupt e) :
    ¬ IsNextFrame s.mode chunks c d drop := by
  rintro ⟨rfl, hlt, rfl⟩
  rcases hi with hr | hd | ⟨e, he⟩
  · exact Nat.ne_of_lt hlt (h.complete.mp hr)
  · cases hd
  · rw [dec_dataFrame _ hc hlt] at he
    cases he

/-- One RCV.FRAME delivers a chunk if the datagram was the next frame, and nothing otherwise. -/
theorem Delivered.frameEffect (hc : Chunked chunks) (h : Delivered chunks log0 c s)
    (ha : Admissible s.mode chunks c d) :
    (IsNextFrame s.mode chunks c d drop → Delivered chunks log0 (c + 1) (s.frameEffect d drop)) ∧
      (¬ IsNextFrame s.mode chunks c d drop → Delivered chunks log0 c (s.frameEffect d drop)) := by
  rcases State.frameEffect_cases s d drop with ⟨hi, ht⟩ | ⟨q, e, p, hs, rfl, hd, ht⟩
  · rw [ht]
    exact ⟨fun hn => absurd hn (h.not_isNextFrame hc hi), fun _ => h⟩
  · rcases ha with ⟨e', he⟩ | ⟨k, hk, hb, hf, rfl⟩
    · rw [hd] at he
      cases he
    · have hlt := h.lt_of_awaiting hs
      rw [dec_dataFrame _ hc hk] at hd
      cases hd
      have hacc := h.accepts_iff hb hf
      rcases ht with ⟨hq, ht⟩ | ⟨hq, ht⟩
      · obtain rfl := hacc.mp hq
        rw [ht]
        exact ⟨fun _ => h.acceptFrame hs, fun hn => absurd ⟨rfl, hk, rfl⟩ hn⟩
      · have hne : k ≠ c := fun hkc => by simp [hacc.mpr hkc] at hq
        rw [ht]
        exact ⟨fun ⟨_, _, he⟩ => absurd (dataFrame_inj hc hk hlt hb (Nat.lt_of_succ_lt hf) he) hne, fun _ => h.tx _⟩

/-! ## The end of the transfer -/

/-- The receiver has succeeded exactly when it has all chunks (R40, R43). -/
theorem Delivered.succeeded_iff (h : Delivered chunks log0 c s) : s.Succeeded ↔ c = chunks.length := by
  obtain ⟨⟨_, hfailed, _⟩, hrole⟩ := h.receiving
  simp [State.Succeeded, State.fin, hrole, hfailed, h.intact, h.complete]

theorem Delivered.succeeded_iff_all (h : Delivered chunks log0 c s) :
    s.Succeeded ↔ Delivered chunks log0 chunks.length s :=
  ⟨fun hs => h.succeeded_iff.mp hs ▸ h, fun ha => ha.succeeded_iff.mpr rfl⟩

/-- When all chunks are delivered the sink has got the whole transfer. -/
theorem Delivered.sinkContent_eq (h : Delivered chunks log0 chunks.length s) :
    sinkContent s.log = sinkContent log0 ++ chunks.flatten := by
  rw [sinkContent, h.written, List.take_length, List.flatten_append, sinkContent]

/-- Settles O40: RCV.FRAME of an admissible datagram keeps what is delivered or takes it one chunk further
(`Delivered.frameEffect`), and either way success is having all chunks. -/
theorem deliversInOrderExactlyOnce : Obligations.DeliversInOrderExactlyOnce := by
  intro chunks log0 c s d drop hc h hlen ha
  obtain ⟨hnext, hsame⟩ := h.frameEffect (drop := drop) hc ha
  have hsome : ∃ c', Delivered chunks log0 c' (s.frameEffect d drop) := by
    by_cases hn : IsNextFrame s.mode chunks c d drop
    · exact ⟨_, hnext hn⟩
    · exact ⟨_, hsame hn⟩
  obtain ⟨c', h'⟩ := hsome
  exact ⟨_, execRcvFrame_next.mpr ⟨h.receiving, hlen, rfl⟩, hnext, hsame, h'.succeeded_iff_all,
    fun hs => (h'.succeeded_iff_all.mp hs).sinkContent_eq⟩

end Sys2Proof.Machine
end

section
/-! The state family. What a step keeps, packaged once; what each shared operation leaves as it was; then the register
invariant (O52) update by update. -/

namespace Sys2Proof.Machine

variable {s t : State} {i : Instr}

/-! ## Keeping a property along a step -/

/-- A property of the engine that every instruction but the sub-operations keeps is kept by every step. -/
theorem step_keeps {P : State → Prop} (hquiet : ∀ {s t}, SameEngine s t → P s → P t)
    (hexec : ∀ {i s t}, ExecCase i s t → i.isSub = false → P s → P t) (h : P s) (hst : step s = .next t) : P t := by
  cases step_cases hst with
  | quiet hq => exact hquiet hq h
  | instruction i s0 h0 hx hsub => exact hexec (exec_cases hx) hsub (hquiet h0 h)
  | arrival d drop s0 h0 ha =>
    -- a datagram too short for a frame arrives just as a frame does
    exact hexec (arrive_execCase (i := .frameW false 0 0 [] false) rfl ha) rfl (hquiet h0 h)

/-! ## What the bodies of SND.SEND, SND.ACK and RCV.FRAME leave as it was -/

theorem State.ackEffect_frame (s : State) (d : Datagram) :
    s.ackEffect d = { s with
      out := (s.ackEffect d).out, sBase := (s.ackEffect d).sBase, fAckUnsent := (s.ackEffect d).fAckUnsent
      tArmed := (s.ackEffect d).tArmed, tCnt := (s.ackEffect d).tCnt } := by
  rcases s.ackEffect_cases d with h | ⟨a, e, p, -, -, h⟩
  · rw [h]
  · rw [h, State.acceptAck_eq]

theorem State.ackEffect_out_suffix (s : State) (d : Datagram) : (s.ackEffect d).out <:+ s.out := by
  rcases s.ackEffect_cases d with h | ⟨a, e, p, -, -, h⟩
  · rw [h]
  · rw [h, State.acceptAck_eq]
    exact List.drop_suffix _ _

/-- `F_ACKUNSENT` is sticky (R42). -/
theorem State.ackEffect_fAckUnsent {s : State} (h : s.fAckUnsent = true) (d : Datagram) :
    (s.ackEffect d).fAckUnsent = true := by
  rcases s.ackEffect_cases d with ht | ⟨a, e, p, -, -, ht⟩
  · rw [ht, h]
  · rw [ht, State.acceptAck_eq]
    simp [h]

theorem State.frameEffect_frame (s : State) (d : Datagram) (drop : Bool) :
    s.frameEffect d drop = { s with
      log := (s.frameEffect d drop).log, chOut := (s.frameEffect d drop).chOut, rLast := (s.frameEffect d drop).rLast
      rFirst := (s.frameEffect d drop).rFirst, rState := (s.frameEffect d drop).rState } := by
  rcases s.frameEffect_cases d drop with ⟨-, h⟩ | ⟨q, e, p, hs, -, -, ⟨-, h⟩ | ⟨-, h⟩⟩
  · rw [h]
  · rw [h, State.acceptFrame_eq _ _ _ _ hs]
  · rw [h, State.tx]

/-! ## The register invariant, one lemma per kind of update (O52) -/

/-- A session starts with its registers in range (R22, R23, R45). -/
theorem RegInv.newSession (s : State) {r : Role} {m : Mode} {w k : Nat} (hw : m = .win → 1 ≤ w ∧ w ≤ 128)
    (hk : r = .sender → 1 ≤ k) : RegInv (s.newSession r m w k) where
  window := by
    cases m with
    | so => simp
    | win =>
      have := hw rfl
      simp only [State.newSession_w, BitVec.toNat_ofNat]
      omega
  windowSo := by rintro rfl; rfl
  delay := hk
  parity := by rintro rfl; simp [modulus]
  idleCount _ := rfl
  countBound := Nat.zero_le _
  errCode := .inl rfl
  failedErr := by simp
  outBound := Nat.zero_le _
  frameLength := by simp
  started := by simp
  unsent := by simp
  overIdle := by simp
  receiverIdle := by simp
  senderIdle _ := ⟨by cases m <;> rfl, rfl, rfl⟩

/-- No register is in the ports or the environment. -/
theorem RegInv.ports (h : RegInv s) (src : List (List Byte)) (log : List PortAct) (chOut chIn : List Datagram)
    (inputs : List Txn) (result : FnResult) :
    RegInv { s with src := src, log := log, chOut := chOut, chIn := chIn, inputs := inputs, result := result } :=
  { h with }

/-- The timer of a running SENDER may be set to any count within the delay, 0 when idle (R34, R35). -/
theorem RegInv.timer (h : RegInv s) (hs : s.Sending) {armed : Bool} {count : Nat} (hidle : armed = false → count = 0)
    (hcount : count ≤ s.tRto) : RegInv { s with tArmed := armed, tCnt := count } :=
  { h with
    idleCount := hidle
    countBound := hcount
    overIdle := by simp [hs.1.2.1, hs.1.2.2]
    receiverIdle := by simp [hs.2] }

/-- The timer is idle after the teardown, in either role (R189). -/
theorem RegInv.teardown_idle (h : RegInv s) : s.teardownTimer.tArmed = false := by
  rw [State.teardownTimer_eq]
  cases hr : s.role with
  | sender => simp
  | receiver => simpa using (h.receiverIdle hr).2.2.2.2.2.1

theorem RegInv.teardownTimer (h : RegInv s) (hs : s.Running) : RegInv s.teardownTimer := by
  cases hr : s.role with
  | sender =>
    rw [State.teardownTimer, hr]
    exact h.timer ⟨hs, hr⟩ (fun _ => rfl) (Nat.zero_le _)
  | receiver =>
    rw [State.teardownTimer, hr]
    exact h

/-- CLOSE and CH.FAIL leave the session with the timer idle (R221, R222). -/
theorem RegInv.close (h : RegInv s) (hs : s.Running) : RegInv { s.teardownTimer with closed := true } :=
  { h.teardownTimer hs with overIdle := fun _ => h.teardown_idle }

theorem RegInv.enterFatal (h : RegInv s) (hs : s.Running) : RegInv (s.enterFatal .channelClosed) := by
  have ht := h.teardownTimer hs
  have hidle := h.teardown_idle
  rw [State.teardownTimer_eq] at ht hidle
  rw [State.enterFatal_eq]
  exact { ht with errCode := .inr rfl, failedErr := by simp, overIdle := fun _ => hidle }

/-- Every sequence register is below `N` (R25, R26). -/
theorem RegInv.seq_lt (h : RegInv s) : s.sBase.toNat < modulus s.mode ∧ s.sNext.toNat < modulus s.mode := by
  cases hm : s.mode with
  | win => exact ⟨s.sBase.isLt, s.sNext.isLt⟩
  | so => exact ⟨(h.parity hm).1, (h.parity hm).2.1⟩

/-- In mode SO a sequence number is a parity (R10, R25). -/
theorem parity_of_lt {m : Mode} {x : Seq} (hm : m = .so) (h : x.toNat < modulus m) : x.toNat < 2 := by
  subst hm
  exact h

/-- SND.SEND keeps the ranges: there is room for one frame more, and the frame holds one source read (R151). -/
theorem RegInv.sendEffect (h : RegInv s) (hs : s.Sending) (hf : s.outCnt < s.weff) (he : s.sEof = false) :
    RegInv s.sendEffect := by
  have hcount : (if s.mode = .so ∨ s.sStarted = false then s.tRto else s.tCnt) ≤ s.tRto := by
    split
    · exact Nat.le_refl _
    · exact h.countBound
  have hidle : (if s.mode = .so ∨ s.sStarted = false then true else s.tArmed) = false →
      (if s.mode = .so ∨ s.sStarted = false then s.tRto else s.tCnt) = 0 := by
    split
    · simp
    · exact h.idleCount
  have ht := h.timer hs hidle hcount
  rw [State.sendEffect_eq he]
  exact { ht with
    parity := fun hm =>
      ⟨(h.parity hm).1, parity_of_lt hm (seqInc_lt h.seq_lt.2), (h.parity hm).2.2⟩
    outBound := by simpa [State.outCnt, State.weff] using hf
    frameLength := by
      have hread := (readSource_append 124 s.src).2
      intro f hmem
      rcases List.mem_append.mp hmem with hold | hnew
      · exact h.frameLength f hold
      · rw [List.mem_singleton.mp hnew, enc_length]
        omega
    started := fun _ => rfl
    unsent := fun hu => absurd (h.unsent hu).2.1 (by simp [he])
    receiverIdle := by simp [hs.2] }

/-- In phase WAIT an ack within the window for more frames than OUT holds comes after the end of the source, in mode WIN
(R176). -/
theorem unsent_ack_after_end (hs : s.Running) (hw : s.phase = .wait) {k : Nat} (hk : k ≤ s.weff)
    (hlt : s.outCnt < k) : s.mode = .win ∧ s.sEof = true := by
  rcases (phase_wait_iff hs).mp hw with ⟨he, hout⟩ | ⟨-, hfull⟩
  · refine ⟨?_, he⟩
    have hpos : 0 < s.outCnt := List.length_pos_of_ne_nil hout
    cases hm : s.mode with
    | win => rfl
    | so =>
      simp only [State.weff, hm] at hk
      omega
  · omega

/-- An accepted ack of at most a window of frames keeps the ranges (R174 to R176). -/
theorem RegInv.acceptAck (h : RegInv s) (hs : s.Sending) (hw : s.phase = .wait) {a : Seq} {k : Nat}
    (ha : a.toNat < modulus s.mode) (hk : k ≤ s.weff) : RegInv (s.acceptAck a k) := by
  have hidle : decide (s.mode = .win ∧ ¬ (s.outCnt ≤ k ∧ s.sEof = true)) = false →
      (if s.mode = .win ∧ ¬ (s.outCnt ≤ k ∧ s.sEof = true) then s.tRto else 0) = 0 :=
    fun hc => if_neg (of_decide_eq_false hc)
  have hcount : (if s.mode = .win ∧ ¬ (s.outCnt ≤ k ∧ s.sEof = true) then s.tRto else 0) ≤ s.tRto := by
    split
    · exact Nat.le_refl _
    · exact Nat.zero_le _
  have ht := h.timer hs hidle hcount
  rw [State.acceptAck_eq]
  exact { ht with
    parity := fun hm => ⟨parity_of_lt hm (seqInc_lt ha), (h.parity hm).2⟩
    outBound := by
      have := h.outBound
      simp only [State.outCnt, State.weff, List.length_drop] at this ⊢
      omega
    frameLength := fun f hmem => h.frameLength f (List.mem_of_mem_drop hmem)
    started := fun hst => h.started (hst.imp_right fun hne hnil => hne (by simp [hnil]))
    unsent := by
      intro hu
      rcases (Bool.or_eq_true _ _).mp hu with hold | hnew
      · obtain ⟨hm, he, hout⟩ := h.unsent hold
        exact ⟨hm, he, by simp [hout]⟩
      · have hlt := of_decide_eq_true hnew
        obtain ⟨hm, he⟩ := unsent_ack_after_end hs.1 hw hk hlt
        exact ⟨hm, he, List.drop_eq_nil_of_le (Nat.le_of_lt hlt)⟩
    receiverIdle := by simp [hs.2] }

theorem RegInv.ackEffect (h : RegInv s) (hs : s.Sending) (hw : s.phase = .wait) (d : Datagram) :
    RegInv (s.ackEffect d) := by
  rcases s.ackEffect_cases d with ht | ⟨a, e, p, hd, ho, ht⟩
  · rwa [ht]
  · rw [ht]
    exact h.acceptAck hs hw (dec_seq_lt hd) ho

theorem RegInv.frameEffect (h : RegInv s) (hs : s.Receiving) (d : Datagram) (drop : Bool) :
    RegInv (s.frameEffect d drop) := by
  rcases s.frameEffect_cases d drop with ⟨-, ht⟩ | ⟨q, e, p, hst, -, hd, ⟨-, ht⟩ | ⟨-, ht⟩⟩
  · rwa [ht]
  · rw [ht, State.acceptFrame_eq _ _ _ _ hst]
    exact { h with
      parity := fun hm => ⟨(h.parity hm).1, (h.parity hm).2.1, parity_of_lt hm (dec_seq_lt hd)⟩
      senderIdle := by simp [hs.2] }
  · rw [ht]
    exact h.ports ..

/-- Every instruction keeps the registers of a live session in their ranges. -/
theorem ExecCase.regsOk (hc : ExecCase i s t) (h : s.RegsOk) : t.RegsOk := by
  intro hl
  cases hc with
  | reset r m w k hi hp ht => exact ht ▸ RegInv.newSession s hp.1 hp.2
  | close hi hs ht => exact ht ▸ (h hs.1).close hs
  | chFail hi hs ht => exact ht ▸ (h hs.1).enterFatal hs
  | function hi hs r ht => exact ht ▸ (h hs.1).ports ..
  | send hi hs hf he ht => exact ht ▸ (h hs.1.1).sendEffect hs hf he
  | ack d hi hs hw ht => exact ht ▸ (h hs.1.1).ackEffect hs hw d
  | start hi hs ht => exact ht ▸ (h hs.1.1).timer hs (by simp) (Nat.le_refl _)
  | cancel hi hs ht => exact ht ▸ (h hs.1.1).timer hs (fun _ => rfl) (Nat.zero_le _)
  | tick hi hs ht =>
    have hr := h hs.1.1
    have hle : (if s.tArmed = true ∧ 0 < s.tCnt then s.tCnt - 1 else s.tCnt) ≤ s.tCnt := by split <;> omega
    exact ht ▸ hr.timer hs (fun hn => Nat.le_zero.mp (hr.idleCount hn ▸ hle)) (hle.trans hr.countBound)
  | fire hi hs ha hc ht =>
    have hr := (h hs.1.1).timer hs (armed := s.tArmed) (count := s.tRto) (by simp [ha]) (Nat.le_refl _)
    exact ht ▸ hr.ports ..
  | frame d drop hi hs ht => exact ht ▸ (h hs.1.1).frameEffect hs d drop
  | held hi d ht =>
    subst ht
    exact (h hl).ports ..
  | lost hi hs ht => exact ht ▸ h (ht ▸ hl)

theorem SameEngine.regsOk (hq : SameEngine s t) (h : s.RegsOk) : t.RegsOk := by
  intro hl
  rw [hq.live] at hl
  rw [hq]
  exact (h hl).ports ..

/-- Settles O52: each instruction keeps the ranges (`ExecCase.regsOk`), and so does what only moves datagrams. -/
theorem stepKeepsRegisters : Obligations.StepKeepsRegisters := fun _ _ h hst =>
  step_keeps (P := State.RegsOk) SameEngine.regsOk (fun hc _ => hc.regsOk) h hst

end Sys2Proof.Machine
end

section
/-! The sender's window (O53): what a new session, SND.SEND and an accepted ack do to it. -/

namespace Sys2Proof.Machine

variable {s t : State} {i : Instr}

/-- The window of a new session is empty (R45). -/
theorem WindowInv.newSession (s : State) (r : Role) (m : Mode) (w k : Nat) : WindowInv (s.newSession r m w k) where
  next := (Nat.zero_mod _).symm
  entries := by simp

/-- The window is in `S_BASE`, `S_NEXT`, `S_EOF` and OUT alone, read in the session's mode (R30). -/
theorem WindowInv.congr (h : WindowInv s) (hm : t.mode = s.mode) (hb : t.sBase = s.sBase) (hn : t.sNext = s.sNext)
    (he : t.sEof = s.sEof) (ho : t.out = s.out) : WindowInv t where
  next := by simpa only [State.n, State.outCnt, hm, hb, hn, ho] using h.next
  entries := by simpa only [State.n, State.outCnt, hm, hb, he, ho] using h.entries

/-- The number after the one `k` places past the base is the one `k + 1` places past it (R140). -/
theorem seqInc_add {m : Mode} {b x : Seq} {k : Nat} (hx : x.toNat = (b.toNat + k) % modulus m) :
    (seqInc (modulus m) x).toNat = (b.toNat + (k + 1)) % modulus m := by
  have hlt : x.toNat < modulus m := hx ▸ mod_modulus_lt _ _
  rw [seqInc_toNat hlt, hx, Nat.mod_add_mod, Nat.add_assoc]

/-- A frame sent takes the next number and is final exactly if its read was short (R151, R152). -/
theorem WindowInv.sendEffect (h : WindowInv s) (hr : RegInv s) (he : s.sEof = false) : WindowInv s.sendEffect := by
  rw [State.sendEffect_eq he]
  refine ⟨by simpa [State.outCnt, State.n] using seqInc_add h.next, fun i f hf => ?_⟩
  rcases Nat.lt_trichotomy i s.out.length with hlt | rfl | hgt
  · obtain ⟨q, eot, p, hd, hq, hfin⟩ := h.entries i f (by simpa [List.getElem?_append_left hlt] using hf)
    -- an older frame is not final: the source had not ended
    refine ⟨q, eot, p, hd, hq, ?_⟩
    simp [hfin, he, State.outCnt]
    omega
  · obtain rfl : _ = f := by simpa using hf
    exact ⟨_, _, _, dec_enc _ _ _ hr.seq_lt.2, h.next, by simp [State.outCnt]⟩
  · simp [List.getElem?_eq_none_iff.mpr (show (s.out ++ [_]).length ≤ i by simpa using hgt)] at hf

/-- An ack of `k` of the frames sent moves the base to where the rest begins (R174). -/
theorem WindowInv.acceptAck (h : WindowInv s) {a : Seq} {k : Nat} (hk : k + 1 ≤ s.outCnt)
    (ha : a.toNat = (s.sBase.toNat + k) % s.n) : WindowInv (s.acceptAck a (k + 1)) := by
  have hbase (j : Nat) : ((seqInc s.n a).toNat + j) % s.n = (s.sBase.toNat + (k + 1 + j)) % s.n := by
    rw [State.n, seqInc_add ha, Nat.mod_add_mod, Nat.add_assoc]
  rw [State.acceptAck_eq]
  constructor
  case next =>
    change s.sNext.toNat = ((seqInc s.n a).toNat + (s.out.drop (k + 1)).length) % s.n
    rw [hbase, List.length_drop, ← State.outCnt, Nat.add_sub_cancel' hk, h.next]
  case entries =>
    intro i f hf
    obtain ⟨q, eot, p, hd, hq, hfin⟩ := h.entries (k + 1 + i) f (by simpa using hf)
    refine ⟨q, eot, p, hd, hq.trans (hbase i).symm, hfin.trans (and_congr_right fun _ => ?_)⟩
    simp only [State.outCnt, List.length_drop] at hk ⊢
    omega

/-- While `F_ACKUNSENT` stays 0 an ack covers frames sent only (R176). -/
theorem WindowInv.ackEffect (h : WindowInv s) (hr : RegInv s) {d : Datagram}
    (hu : (s.ackEffect d).fAckUnsent = false) : WindowInv (s.ackEffect d) := by
  rcases s.ackEffect_cases d with ht | ⟨a, e, p, hd, ho, ht⟩
  · rwa [ht]
  · rw [ht] at hu ⊢
    have hk : seqOff s.n s.sBase a + 1 ≤ s.outCnt := by
      rw [State.acceptAck_eq] at hu
      simpa using (Bool.or_eq_false_iff.mp hu).2
    exact h.acceptAck hk (add_seqOff hr.seq_lt.1 (dec_seq_lt hd)).symm

/-- While `F_ACKUNSENT` is 0 every instruction keeps the window: most do not touch it. -/
theorem ExecCase.windowInv (hc : ExecCase i s t) (hl : t.live = true) (h : s.WindowOk) (hu : t.fAckUnsent = false) :
    WindowInv t := by
  cases hc with
  | reset r m w k hi hp ht => exact ht ▸ WindowInv.newSession s r m w k
  | close hi hs ht =>
    rw [State.teardownTimer_eq] at ht
    subst ht
    exact ((h hs.1).2 hu).congr rfl rfl rfl rfl rfl
  | chFail hi hs ht =>
    rw [State.enterFatal_eq] at ht
    subst ht
    exact ((h hs.1).2 hu).congr rfl rfl rfl rfl rfl
  | send hi hs hf he ht =>
    rw [ht, State.sendEffect_eq he] at hu
    exact ht ▸ ((h hs.1.1).2 hu).sendEffect (h hs.1.1).1 he
  | ack d hi hs hw ht =>
    subst ht
    have hu0 : s.fAckUnsent = false :=
      Bool.eq_false_iff.mpr fun hset => by simp [State.ackEffect_fAckUnsent hset d] at hu
    exact ((h hs.1.1).2 hu0).ackEffect (h hs.1.1).1 hu
  | frame d drop hi hs ht =>
    rw [State.frameEffect_frame] at ht
    subst ht
    exact ((h hs.1.1).2 hu).congr rfl rfl rfl rfl rfl
  | lost hi hs ht => exact ht ▸ (h (ht ▸ hl)).2 (ht ▸ hu)
  | function | held | start | cancel | tick | fire =>
    rename_i ht
    subst ht
    exact ((h hl).2 hu).congr rfl rfl rfl rfl rfl

theorem State.WindowOk.regsOk (h : s.WindowOk) : s.RegsOk := fun hl => (h hl).1

theorem SameEngine.windowOk (hq : SameEngine s t) (h : s.WindowOk) : t.WindowOk := by
  intro hl
  refine ⟨hq.regsOk h.regsOk hl, fun hu => ?_⟩
  rw [hq] at hl hu ⊢
  exact ((h hl).2 hu).congr rfl rfl rfl rfl rfl

/-- Settles O53: each instruction keeps the ranges of the registers (O52) and, while `F_ACKUNSENT` is 0, the window. -/
theorem stepKeepsWindow : Obligations.StepKeepsWindow := fun _ _ h hst =>
  step_keeps (P := State.WindowOk) SameEngine.windowOk
    (fun hc _ h hl => ⟨hc.regsOk h.regsOk hl, hc.windowInv hl h⟩) h hst

end Sys2Proof.Machine
end

section
/-! Phases, owners of registers, and what only RESET does (O29, O44, O58, O59, O60); then RESET, TMR.START, the STATUS byte
and the reset state (O31, O41, O45, O55). -/

namespace Sys2Proof.Machine

variable {s t : State} {i : Instr}

/-! ## Phases -/

/-- A session that runs is in one of the three phases of the main loop (R29). -/
theorem phase_of_running (h : s.Running) : s.phase = .fill ∨ s.phase = .wait ∨ s.phase = .done := by
  obtain ⟨-, hfailed, hclosed⟩ := h
  unfold State.phase
  simp only [hfailed, hclosed, Bool.false_eq_true, if_false]
  split
  · exact .inr (.inr rfl)
  · split
    · exact .inl rfl
    · exact .inr (.inl rfl)

theorem running_sendEffect (hs : s.Running) (he : s.sEof = false) : s.sendEffect.Running := by
  rw [State.sendEffect_eq he]
  exact hs

theorem running_ackEffect (hs : s.Running) (d : Datagram) : (s.ackEffect d).Running := by
  rw [State.ackEffect_frame]
  exact hs

/-- SND.SEND leaves something outstanding, so it does not lead to DONE (R150). -/
theorem phase_sendEffect (hs : s.Running) (he : s.sEof = false) :
    s.sendEffect.phase = .fill ∨ s.sendEffect.phase = .wait := by
  have hrun := running_sendEffect hs he
  have hne : s.sendEffect.phase ≠ .done := by
    intro hdone
    have hout := ((phase_done_iff hrun).mp hdone).2
    simp [State.sendEffect_eq he] at hout
  have := phase_of_running hrun
  tauto

/-- Settles O29: the enabling conditions are phases, and what each operation leaves is again a running session's phase,
CLOSED or FAILED. -/
theorem phaseTransitions : Obligations.PhaseTransitions := by
  intro s t hs
  refine ⟨fun h => ?send, fun d h => ?ack, fun h => ?close, fun h => ?fail⟩
  case send =>
    obtain ⟨-, hroom, he, rfl⟩ := execSndSend_next.mp h
    exact ⟨(phase_fill_iff hs.1).mpr ⟨hroom, he⟩, phase_sendEffect hs.1 he⟩
  case ack =>
    obtain ⟨-, -, hw, rfl⟩ := execSndAck_next.mp h
    exact ⟨hw, phase_of_running (running_ackEffect hs.1 d)⟩
  case close =>
    obtain ⟨⟨-, hfailed, -⟩, rfl⟩ := execClose_next.mp h
    simp [State.phase, State.teardownTimer_eq, hfailed]
  case fail =>
    obtain ⟨-, rfl⟩ := execChFail_next.mp h
    simp [State.phase, State.enterFatal_eq]

/-! ## Only RESET -/

/-- Every instruction but RESET and the frames is behind the gate of a running session (R223, R260). -/
theorem exec_gated (hf : i.isFrame = false) (hr : ∀ r m w k, i ≠ .reset r m w k) (s : State) :
    ∃ k, exec i s = whenLive s k := by
  cases i with
  | reset r m w k => exact absurd rfl (hr r m w k)
  | frameW | frameS => cases hf
  | _ => exact ⟨_, rfl⟩

/-- Settles O44: the gate refuses under the name of the state the session is in. -/
theorem onlyResetLeavesADeadSession : Obligations.OnlyResetLeavesADeadSession := by
  intro s i hdead hf hr
  obtain ⟨k, hk⟩ := exec_gated hf hr s
  rw [hk, whenLive_dead hdead]
  exact ⟨fun hl => by simp [hl], fun hl => by simp [hl]⟩

/-- Settles O58: no update but RESET's touches a CFG field; the marks are only ever set. -/
theorem onlyResetReconfigures : Obligations.OnlyResetReconfigures := by
  intro s t i hr h
  cases exec_cases h with
  | reset r m w k hi => exact absurd hi (hr r m w k)
  | close hi hs ht => simp [ht, State.teardownTimer_eq]
  | chFail hi hs ht => simp [ht, State.enterFatal_eq]
  | send hi hs hf he ht => simp [ht, State.sendEffect_eq he]
  | ack d hi hs hw ht =>
    rw [ht, State.ackEffect_frame]
    exact ⟨rfl, rfl, rfl, rfl, rfl, id, id, id, fun hu => State.ackEffect_fAckUnsent hu d⟩
  | frame d drop hi hs ht =>
    rw [State.frameEffect_frame] at ht
    simp [ht]
  | function | start | cancel | tick | fire | held | lost =>
    rename_i ht
    simp [ht]

/-! ## Owners -/

/-- Settles O59: each kind of update writes OUT, the sender's cursor and the timer only where its owner may. -/
theorem ownersOfOutAndTimer : Obligations.OwnersOfOutAndTimer := by
  intro s t i h
  cases exec_cases h with
  | reset r m w k hi hp ht => simp [hi, ht]
  | close hi hs ht => simp [hi, ht, State.teardownTimer_eq]
  | chFail hi hs ht => simp [hi, ht, State.enterFatal_eq]
  | function hi hs r ht =>
    cases i with
    | cksum | encW | encS | decW | decS | seqInc | seqOff | inWin => simp [ht]
    | _ => cases hi
  | send hi hs hf he ht => simp [hi, ht, State.sendEffect_eq he, he]
  | ack d hi hs hw ht =>
    have hout : t.out <:+ s.out := ht ▸ s.ackEffect_out_suffix d
    have hcur : t.sNext = s.sNext ∧ t.sEof = s.sEof := by
      rw [ht, State.ackEffect_frame]
      exact ⟨rfl, rfl⟩
    rcases hi with rfl | hi
    · exact ⟨⟨hout, hcur⟩, trivial⟩
    · cases i with
      | frameW | frameS => exact ⟨⟨hout, hcur⟩, by simp [hs.2]⟩
      | _ => cases hi
  | start hi hs ht => simp [hi, ht]
  | cancel hi hs ht => simp [hi, ht]
  | tick hi hs ht => simp [hi, ht]
  | fire hi hs ha hc ht => simp [hi, ht]
  | frame d drop hi hs ht =>
    rw [State.frameEffect_frame] at ht
    rcases hi with rfl | hi
    · simp [ht]
    · cases i with
      | frameW | frameS => simp [ht]
      | _ => cases hi
  | held | lost =>
    rename_i hi _ ht
    cases i with
    | frameW | frameS => simp [ht]
    | _ => cases hi

/-- Settles O60: only RCV.FRAME's body writes the receiver's registers, and it ignores everything in COMPLETE (R208). -/
theorem completeIsTerminal : Obligations.CompleteIsTerminal := by
  intro s t i hr h
  cases exec_cases h with
  | reset r m w k hi => exact absurd hi (hr r m w k)
  | close hi hs ht => simp +contextual [ht, State.teardownTimer_eq]
  | chFail hi hs ht => simp +contextual [ht, State.enterFatal_eq]
  | send hi hs hf he ht => simp +contextual [ht, State.sendEffect_eq he]
  | ack d hi hs hw ht =>
    rw [State.ackEffect_frame] at ht
    simp +contextual [ht]
  | frame d drop hi hs ht =>
    refine ⟨fun hc => ?_, fun _ => .inr (hi.symm.imp_right fun hi => ⟨d, drop, hi⟩)⟩
    rw [ht, State.frameEffect_ignored (.inl hc)]
    exact ⟨hc, rfl⟩
  | function | start | cancel | tick | fire | held | lost =>
    rename_i ht
    simp +contextual [ht]

/-! ## Single operations -/

/-- Settles O31: a running SENDER is all that TMR.START asks for. -/
theorem tmrStartResult : Obligations.TmrStartResult := fun _ hs => execTmrStart_next.mpr ⟨hs, rfl⟩

theorem execReset_refused {r : Role} {m : Mode} {w k : Nat} (h : legalParameters r m w k ≠ true) (s : State) :
    exec (.reset r m w k) s = .refused .illegalParameter := if_neg h

/-- Settles O41: the parameters are legal or not (R220), and a new session is the state of R45. -/
theorem resetResult : Obligations.ResetResult := by
  intro s role mode w trto
  refine ⟨fun hw hk => ?_, fun hbad => execReset_refused (fun hl => ?_) s⟩
  · refine execReset_next.mpr ⟨legalParameters_iff.mpr ⟨hw, hk⟩, ?_⟩
    cases mode <;> rfl
  · obtain ⟨hw, hk⟩ := legalParameters_iff.mp hl
    rcases hbad with ⟨hm, hn⟩ | ⟨hr, hn⟩
    · exact hn (hw hm)
    · exact absurd (hk hr) (by omega)

/-- FIN, role by role (R43). -/
theorem State.fin_iff (s : State) :
    s.fin = true ↔ (s.role = .sender ∧ s.sEof = true ∧ s.outCnt = 0) ∨ (s.role = .receiver ∧ s.rState = .complete) := by
  cases hr : s.role <;> simp [State.fin, hr]

/-- ERR stands in bits 6:4 (R43). -/
theorem State.status_err (s : State) : s.status.extractLsb' 4 3 = s.err := by
  refine BitVec.eq_of_getLsbD_eq fun i hi => ?_
  simp only [State.status, BitVec.getLsbD_extractLsb', BitVec.getLsbD_append]
  simp [hi]

/-- Settles O45: each bit is found by walking the concatenation from bit 0. -/
theorem statusByteLayout : Obligations.StatusByteLayout := by
  intro s
  refine ⟨?_, ?_, ?_, ?_, s.status_err, ?_, s.fin_iff⟩ <;>
    simp only [State.status, BitVec.getLsbD_append] <;> simp

/-- The reset state is a new session of a SENDER in mode SO (notes/assumptions/6.md). -/
theorem State.reset_eq_newSession : State.reset = State.reset.newSession .sender .so 1 100 := rfl

theorem RegInv.reset : RegInv State.reset :=
  State.reset_eq_newSession ▸ RegInv.newSession State.reset (by simp) (by simp)

/-- Nothing is outstanding and the timer is idle (R45, R187). -/
theorem TimerInv.reset : TimerInv State.reset where
  windowed := by simp [State.reset]
  single := by simp [State.reset]

/-- Settles O55: the reset state is a new session's. -/
theorem resetStateInOrder : Obligations.ResetStateInOrder :=
  ⟨fun _ => RegInv.reset, fun _ => ⟨RegInv.reset, fun _ => State.reset_eq_newSession ▸ WindowInv.newSession ..⟩,
    fun _ => ⟨RegInv.reset, fun _ => TimerInv.reset⟩⟩

end Sys2Proof.Machine
end

section
/-! The memory family: the byte source read chunk by chunk (O22), the datagrams in flight (O49, O50), two engines and the
channel between them (O51), what a transaction runs as (O1), a frame at the RX port of a SENDER (O47). -/

namespace Sys2Proof.Machine

variable {s t : State} {x : Txn} {rest : List Txn} {i : Instr} {d : Datagram}

/-! ## The byte source -/

/-- A read of a source that is one string is short only when it takes all of it (R69). -/
theorem readSource_short {src : List (List Byte)} {n : Nat} (hone : src.length ≤ 1)
    (hshort : (readSource n src).1.length < n) : (readSource n src).2.flatten = [] := by
  match src, hone with
  | [], _ => rfl
  | [seg], _ =>
    by_cases hfit : seg.length ≤ n
    · simp [readSource, hfit]
    · simp [readSource, hfit] at hshort
      omega

/-- A string shorter than a chunk is read whole, and that read ends the source. -/
theorem chunksOf_short {bytes : List Byte} (h : bytes.length < 124) (fuel : Nat) :
    chunksOf (fuel + 1) [bytes] = [bytes] := by
  simp [chunksOf, readSource, h, Nat.le_of_lt h]

/-- Nothing left to read is the same source as one empty string left to read. -/
theorem chunksOf_nil (fuel : Nat) : chunksOf fuel [] = chunksOf fuel [[]] := by
  cases fuel <;> rfl

/-- Any other string gives a full chunk, and what is left of the string is read on. -/
theorem chunksOf_full {bytes : List Byte} (h : 124 ≤ bytes.length) (fuel : Nat) :
    chunksOf (fuel + 1) [bytes] = bytes.take 124 :: chunksOf fuel [bytes.drop 124] := by
  rcases Nat.eq_or_lt_of_le h with heq | hlt
  · have hdrop : bytes.drop 124 = [] := List.drop_eq_nil_of_le heq.ge
    have htake : bytes.take 124 = bytes := List.take_of_length_le heq.ge
    simp [chunksOf, readSource, ← heq, hdrop, htake, chunksOf_nil]
  · simp [chunksOf, readSource, Nat.not_le.mpr hlt, Nat.le_of_lt hlt]

/-- Chunk `k` of a string: its 124 bytes from offset `124 * k` on, or as many as there are (R152). -/
def chunkAt (bytes : List Byte) (k : Nat) : List Byte := (bytes.drop (124 * k)).take 124

theorem chunkAt_zero (bytes : List Byte) : chunkAt bytes 0 = bytes.take 124 := rfl

theorem chunkAt_drop (bytes : List Byte) (k : Nat) : chunkAt (bytes.drop 124) k = chunkAt bytes (k + 1) := by
  simp only [chunkAt, List.drop_drop]
  congr 2
  omega

theorem flatten_chunkAt (bytes : List Byte) (n : Nat) :
    ((List.range n).map (chunkAt bytes)).flatten = bytes.take (124 * n) := by
  induction n with
  | zero => rfl
  | succ n ih => simp [List.range_succ, ih, chunkAt, Nat.mul_succ, List.take_add]

/-- Up to the short read, the reads give the chunks of the string one after the other. -/
theorem chunksOf_eq_chunkAt {n : Nat} {bytes : List Byte} (h : n ≤ bytes.length / 124 + 1) :
    chunksOf n [bytes] = (List.range n).map (chunkAt bytes) := by
  induction n generalizing bytes with
  | zero => rfl
  | succ n ih =>
    by_cases hlen : bytes.length < 124
    · obtain rfl : n = 0 := by omega
      simp [chunksOf_short hlen, chunkAt, List.take_of_length_le (Nat.le_of_lt hlen)]
    · rw [chunksOf_full (Nat.not_lt.mp hlen), ih (by simp; omega), List.range_succ_eq_map]
      simp [Function.comp_def, chunkAt_drop, chunkAt_zero]

/-- The chunks of a string are full but the last, which is what remains. -/
theorem chunkAt_length_of_le {bytes : List Byte} {k : Nat} (h : k ≤ bytes.length / 124) :
    (chunkAt bytes k).length = if k = bytes.length / 124 then bytes.length % 124 else 124 := by
  simp only [chunkAt, List.length_take, List.length_drop]
  split <;> omega

/-- Settles O22: a read takes the next bytes (`readSource_append`), and the reads of one string are its chunks
(`chunksOf_eq_chunkAt`). -/
theorem sourceMakesChunks : Obligations.SourceMakesChunks := by
  refine ⟨fun src => ?_, fun bytes => ?_⟩
  · obtain ⟨hjoin, hlen⟩ := readSource_append 124 src
    exact ⟨hjoin, hlen, readSource_short⟩
  have hget : ∀ k, k ≤ bytes.length / 124 →
      ((List.range (bytes.length / 124 + 1)).map (chunkAt bytes))[k]? = some (chunkAt bytes k) := fun k hk => by
    simp [Nat.lt_succ_of_le hk]
  rw [chunksOf_eq_chunkAt (Nat.le_refl _)]
  refine ⟨?joined, by simp, fun k hk => ⟨_, hget k (Nat.le_of_lt hk), ?full⟩, ⟨_, hget _ (Nat.le_refl _), ?last⟩,
    by simp, fun k p hp => ?chunked⟩
  case joined => rw [flatten_chunkAt, List.take_of_length_le (by omega)]
  case full => rw [chunkAt_length_of_le (Nat.le_of_lt hk), if_neg (Nat.ne_of_lt hk)]
  case last => rw [chunkAt_length_of_le (Nat.le_refl _), if_pos rfl]
  case chunked =>
    have hk : k ≤ bytes.length / 124 := by
      have := (List.getElem?_eq_some_iff.mp hp).1
      simp at this
      omega
    obtain rfl : chunkAt bytes k = p := by simpa [hget k hk] using hp
    have hlen := chunkAt_length_of_le hk
    simp only [List.length_map, List.length_range]
    split at hlen <;> omega

/-! ## The datagrams in flight -/

/-- Other datagrams in flight are all that `withFlight` makes different. -/
theorem State.withFlight_eq (s : State) (dir : Direction) (ds : List Datagram) :
    s.withFlight dir ds = { s with chIn := (s.withFlight dir ds).chIn, chOut := (s.withFlight dir ds).chOut } := by
  cases dir <;> rfl

/-- What is presented next says nothing about the flight. -/
@[simp] theorem State.flight_inputs (s : State) (rest : List Txn) (dir : Direction) :
    State.flight { s with inputs := rest } dir = s.flight dir := by cases dir <;> rfl

/-- A step whose act puts `ds` in one direction: that direction holds `ds` and the other is as it was. -/
def PutsInFlight (s : State) (dir : Direction) (ds : List Datagram) : Prop :=
  ∃ t, step s = .next t ∧ t.flight dir = ds ∧ ∀ other, other ≠ dir → t.flight other = s.flight other

theorem putsInFlight_of_step {dir : Direction} {ds : List Datagram}
    (h : step s = .next (State.withFlight { s with inputs := rest } dir ds)) : PutsInFlight s dir ds :=
  ⟨_, h, State.flight_withFlight .., fun _ ho => by rw [State.flight_withFlight_other _ ho, State.flight_inputs]⟩

theorem step_channel {a : ChanAct} (hin : s.inputs = .channel a :: rest) :
    step s = channelAct a { s with inputs := rest } := step_cons hin

/-- Presenting is the RX port on the flight without the datagram (R72). -/
theorem step_present {k : Nat} {drop : Bool} (hin : s.inputs = .channel (.present k drop) :: rest) :
    step s = onDatagram { s with inputs := rest } .fromPeer k fun d ds =>
      presentRx d drop (State.withFlight { s with inputs := rest } .fromPeer (ds.eraseIdx k)) := step_cons hin

/-- Every act but `present` puts other datagrams in flight in one direction, or is refused (R72). -/
theorem channelAct_next {a : ChanAct} (ha : ∀ i drop, a ≠ .present i drop) (h : channelAct a s = .next t) :
    ∃ dir ds, t = s.withFlight dir ds := by
  cases a <;> simp only [channelAct] at h
  case appear dir d =>
    cases h
    exact ⟨_, _, rfl⟩
  case present i drop => exact absurd rfl (ha i drop)
  all_goals
    obtain ⟨d, hd⟩ := onDatagram_next h
    cases hd
    exact ⟨_, _, rfl⟩

/-- An act on the datagram at a position: what it makes of the direction, and that it is refused where there is none. -/
theorem step_onDatagram {a : ChanAct} {dir : Direction} {k : Nat} {f : Datagram → List Datagram → List Datagram}
    (hin : s.inputs = .channel a :: rest)
    (ha : ∀ u, channelAct a u = onDatagram u dir k fun d ds => .next (u.withFlight dir (f d ds))) :
    (∀ d, (s.flight dir)[k]? = some d → PutsInFlight s dir (f d (s.flight dir))) ∧
      ((s.flight dir).length ≤ k → step s = .refused .noSuchDatagram) := by
  have hfl := s.flight_inputs rest dir
  have hst := step_channel hin
  rw [ha] at hst
  refine ⟨fun d hd => putsInFlight_of_step (rest := rest) ?_, fun hk => ?_⟩
  · rw [hst, onDatagram_some (hfl ▸ hd), hfl]
  · rw [hst, onDatagram_none (hfl ▸ hk)]

/-- Replacing the datagram at a position leaves every other position as it was. -/
theorem PutsInFlight.replaced {dir : Direction} {k : Nat} {d' : Datagram}
    (hd : (s.flight dir)[k]? = some d) (h : PutsInFlight s dir ((s.flight dir).set k d')) :
    ∃ t, step s = .next t ∧ (∀ j, (t.flight dir)[j]? = if j = k then some d' else (s.flight dir)[j]?) ∧
      ∀ other, other ≠ dir → t.flight other = s.flight other := by
  obtain ⟨t, hst, hfl, hother⟩ := h
  obtain ⟨hk, -⟩ := List.getElem?_eq_some_iff.mp hd
  refine ⟨t, hst, fun j => ?_, hother⟩
  rw [hfl, List.getElem?_set]
  simp only [hk, eq_comm (a := j), if_true]

/-- Settles O49: `channelAct_next` for the frame, and one equation per act for what it does to its direction. -/
theorem channelActsMoveOnlyDatagrams : Obligations.ChannelActsMoveOnlyDatagrams := by
  intro s a rest hin
  have hst := step_channel hin
  refine ⟨fun ha t ht => ?_, ?_⟩
  · obtain ⟨dir, ds, rfl⟩ := channelAct_next ha (hst ▸ ht)
    exact State.withFlight_eq ..
  · cases a with
    | appear dir d =>
      exact putsInFlight_of_step (rest := rest) (by rw [hst, channelAct, State.flight_inputs])
    | leave dir k => exact step_onDatagram (f := fun _ ds => ds.eraseIdx k) hin fun _ => rfl
    | corrupt dir k offset b =>
      obtain ⟨hput, hnone⟩ := step_onDatagram (f := fun d ds => ds.set k (d.set offset b)) hin fun _ => rfl
      exact ⟨fun d hd => (hput d hd).replaced hd, hnone⟩
    | shorten dir k n =>
      obtain ⟨hput, hnone⟩ := step_onDatagram (f := fun d ds => ds.set k (d.take n)) hin fun _ => rfl
      exact ⟨fun d hd => (hput d hd).replaced hd, hnone⟩
    | duplicate dir k => exact step_onDatagram (f := fun d ds => ds ++ [d]) hin fun _ => rfl
    | present k drop => exact fun hk =>
        (step_present hin).trans (onDatagram_none (s := { s with inputs := rest }) (dir := .fromPeer) hk _)

/-! ## The RX port -/

/-- A datagram of 0 or 1 bytes is corrupt in either format (R99). -/
theorem dec_short (m : Mode) (h : d.length < 2) : dec m d = .corrupt .short := by
  cases m with
  | so => exact decodeS_short h
  | win => exact decodeW_short h

/-- The RX port of a running RECEIVER takes what arrives as RCV.FRAME (R236). -/
theorem arrive_receiving (hs : s.Receiving) (hd : d.length ≤ 128) (drop : Bool) :
    arrive d drop s = .next (s.frameEffect d drop) := arrive_next.mpr ⟨hd, .inl ⟨hs, rfl⟩⟩

/-- The RX port of a running SENDER takes what arrives in WAIT as SND.ACK (R236). -/
theorem arrive_waiting (hs : s.Sending) (hw : s.phase = .wait) (hd : d.length ≤ 128) (drop : Bool) :
    arrive d drop s = .next (s.ackEffect d) := arrive_next.mpr ⟨hd, .inr (.inl ⟨hs, hw, rfl⟩)⟩

/-- In FILL and DONE a SENDER leaves what arrives with the Channel Adapter (R77). -/
theorem arrive_held (hs : s.Sending) (hw : s.phase ≠ .wait) (hd : d.length ≤ 128) (drop : Bool) :
    arrive d drop s = .next { s with chIn := s.chIn ++ [d] } :=
  arrive_next.mpr ⟨hd, .inr (.inr (.inl ⟨.inl ⟨hs, hw⟩, rfl⟩))⟩

/-- A datagram at the RX port that is no frame is taken without effect or held, by role and phase (R99, R172, R202). -/
theorem presentRx_short_effect (h : d.length < 2) (drop : Bool) (s : State) :
    (s.Receiving ∨ (s.Sending ∧ s.phase = .wait) → presentRx d drop s = .next s) ∧
      (s.Sending ∧ s.phase ≠ .wait → presentRx d drop s = .next { s with chIn := s.chIn ++ [d] }) := by
  have hlen : d.length ≤ 128 := by omega
  have hdec := dec_short s.mode h
  rw [presentRx_short h]
  refine ⟨?_, fun ⟨hs, hw⟩ => arrive_held hs hw hlen drop⟩
  rintro (hs | ⟨hs, hw⟩)
  · rw [arrive_receiving hs hlen, State.frameEffect_ignored (.inr (.inr ⟨_, hdec⟩))]
  · rw [arrive_waiting hs hw hlen, State.ackEffect_ignored (by simp [hdec])]

/-- Settles O50: presenting is the RX port on the remaining flight; a short datagram there is `presentRx_short_effect`. -/
theorem presentedDatagramIsTaken : Obligations.PresentedDatagramIsTaken := by
  refine ⟨fun s i drop rest d hin hd => ?_, fun s d drop rest hin hshort => ?_⟩
  · exact (step_present hin).trans (onDatagram_some (s := { s with inputs := rest }) (dir := .fromPeer) hd _)
  · rw [step_cons hin]
    exact presentRx_short_effect hshort drop { s with inputs := rest }

/-! ## Two engines -/

/-- What carrying does, where a datagram is in flight at the position. -/
theorem carry_eq_some_iff {k : Nat} {a b a' b' : State} :
    carry k a b = some (a', b') ↔ ∃ d, a.chOut[k]? = some d ∧
      a' = { a with chOut := a.chOut.eraseIdx k } ∧ b' = { b with chIn := b.chIn ++ [d] } := by
  unfold carry
  cases a.chOut[k]? <;> simp [eq_comm]

/-- Carrying is possible exactly for the positions in flight. -/
theorem carry_isSome_iff {k : Nat} {a b : State} : (carry k a b).isSome ↔ k < a.chOut.length := by
  unfold carry
  by_cases h : k < a.chOut.length <;> simp [h]

/-- Settles O51: a transaction is the step of its own engine, and the rest is `carry`. -/
theorem instancesShareOnlyTheChannel : Obligations.InstancesShareOnlyTheChannel := by
  refine ⟨fun n m a h => ?_, fun n i => ?_, fun n i => ?_⟩
  · cases a with
    | atSender x =>
      simp only [Net.step] at h
      split at h <;> cases h
      rename_i hp
      exact ⟨(step_cons rfl).trans hp, rfl⟩
    | atReceiver x =>
      simp only [Net.step] at h
      split at h <;> cases h
      rename_i hp
      exact ⟨(step_cons rfl).trans hp, rfl⟩
    | carryData k =>
      obtain ⟨⟨a', b'⟩, hc, rfl⟩ := Option.map_eq_some_iff.mp h
      exact carry_eq_some_iff.mp hc
    | carryAck k =>
      obtain ⟨⟨a', b'⟩, hc, rfl⟩ := Option.map_eq_some_iff.mp h
      exact carry_eq_some_iff.mp hc
  · rw [← carry_isSome_iff (b := n.receiver), ← Option.isSome_iff_exists, Net.step, Option.isSome_map]
  · rw [← carry_isSome_iff (b := n.sender), ← Option.isSome_iff_exists, Net.step, Option.isSome_map]

/-! ## What a transaction runs as -/

/-- At the RX port only frames are read (R90). -/
theorem isFrame_of_decodeFrame {m : Mode} {drop : Bool} (h : decodeFrame m d drop = .ok i) : i.isFrame = true := by
  unfold decodeFrame at h
  split at h
  · cases m <;> rw [(checked_ok h).1] <;> rfl
  · cases h

/-- A transaction that decodes runs as its instruction; a sub-operation presented by itself is refused (R103, R180, R181). -/
theorem presentTxn_decoded (h : decodeTxn s.mode x = .ok i) :
    presentTxn x s = if i.isSub then .refused .subOperation else exec i s := by
  cases x with
  | event bytes => simp only [presentTxn, presentOp, h]
  | call bytes => simp only [presentTxn, presentOp, h]
  | rx d drop =>
    have hsub := isSub_of_isFrame (isFrame_of_decodeFrame h)
    simp only [presentTxn, presentRx, h, hsub, Bool.false_eq_true, if_false]
  | channel a => cases h

/-- Settles O1: a step is `presentTxn` of the transaction taken. -/
theorem stepRunsDecodedInstruction : Obligations.StepRunsDecodedInstruction := by
  intro s x rest i hin hdec
  rw [step_cons hin, presentTxn_decoded (s := { s with inputs := rest }) hdec]
  exact ⟨fun hsub => by simp [hsub], fun hsub => by simp [hsub]⟩

/-! ## Frames at a SENDER -/

/-- What arrives at a SENDER is what SND.ACK takes in WAIT, and is held otherwise (R77, R236). -/
theorem arrive_sending (hs : s.Sending) (hd : d.length ≤ 128) (drop : Bool) :
    ∃ t, arrive d drop s = .next t ∧ (s.phase = .wait → exec (.sndAck d) s = .next t) ∧
      (s.phase ≠ .wait → t = { s with chIn := s.chIn ++ [d] }) := by
  by_cases hw : s.phase = .wait
  · exact ⟨_, arrive_waiting hs hw hd drop, fun _ => execSndAck_next.mpr ⟨hs, hd, hw, rfl⟩, fun hn => absurd hw hn⟩
  · exact ⟨_, arrive_held hs hw hd drop, fun hn => absurd hn hw, fun _ => rfl⟩

/-- Settles O47: a frame of either format is the arrival of its bytes, header first. -/
theorem framesReachTheSender : Obligations.FramesReachTheSender := by
  intro s hs
  refine ⟨fun eot q cks p drop hp => ⟨frameWHeader eot q, ?_⟩, fun r q cks p drop hp => ⟨frameSHeader r q, ?_⟩⟩
  · obtain ⟨t, ht⟩ := arrive_sending (d := frameWHeader eot q :: cks :: p) hs (by simp; omega) drop
    exact ⟨t, frameWHeader_toNat eot q, ht⟩
  · obtain ⟨t, ht⟩ := arrive_sending (d := frameSHeader r q :: cks :: p) hs (by simp; omega) drop
    exact ⟨t, frameSHeader_toNat r q, ht⟩

end Sys2Proof.Machine
end

section
/-! The encoding family. What each operand decoder answers, decoding and encoding as inverses (O2 to O5), what is refused
(O6, O19), the codec and the functions as called (O11, O14, O20), an ack in the window (O23), a frame at the RX port of a
RECEIVER (O46). -/

namespace Sys2Proof

variable {i : Instr} {e : DecodeError} {m : Mode} {args : List Byte}

/-! ## The operations decode as they encode -/

theorem checked_of_wellFormed (h : i.WellFormed = true) (e : DecodeError) : checked e i = .ok i := if_pos h

/-- A byte operand reads back as the number it was written from (R22, R142). -/
theorem ofNat_byte_toNat {n : Nat} (h : n < 256) : (BitVec.ofNat 8 n).toNat = n := Nat.mod_eq_of_lt h

theorem decodeReset_bytes (r : Role) (m : Mode) {w : Nat} (hw : w < 256) (k : Nat) :
    decodeReset (byteOfBool (bitOfRole r) :: byteOfBool (bitOfMode m) :: BitVec.ofNat 8 w :: bytesOfNat k) =
      .ok (.reset r m w k) := by
  simp only [decodeReset, decodeBit_byte, roleOfBit_bit, modeOfBit_bit, decodeTrto_bytes, ofNat_byte_toNat hw]

theorem decodeEnc_bytes {mk : Seq → List Byte → Bool → Instr} {q : Seq} {p : List Byte} {l : Bool}
    (h : (mk q p l).WellFormed = true) : decodeEnc mk (byteOfSeq q :: byteOfBool l :: p) = .ok (mk q p l) := by
  simp only [decodeEnc, decodeSeq_byte, decodeBit_byte, checked_of_wellFormed h]

theorem decodeSeqInc_bytes (x : Seq) : decodeSeqInc [byteOfSeq x] = .ok (.seqInc x) := by
  simp only [decodeSeqInc, decodeSeq_byte]

theorem decodeSeqOff_bytes (b v : Seq) : decodeSeqOff [byteOfSeq b, byteOfSeq v] = .ok (.seqOff b v) := by
  simp only [decodeSeqOff, decodeSeq_byte]

theorem decodeInWin_bytes {b v : Seq} {n : Nat} (h : (Instr.inWin b n v).WellFormed = true) :
    decodeInWin [byteOfSeq b, BitVec.ofNat 8 n, byteOfSeq v] = .ok (.inWin b n v) := by
  have hn : n ≤ 128 := of_decide_eq_true h
  simp only [decodeInWin, decodeSeq_byte, ofNat_byte_toNat (show n < 256 by omega), checked_of_wellFormed h]

theorem decodeRcvFrame_bytes {d : Datagram} {drop : Bool} (h : (Instr.rcvFrame d drop).WellFormed = true) :
    decodeRcvFrame (byteOfBool drop :: d) = .ok (.rcvFrame d drop) := by
  simp only [decodeRcvFrame, decodeBit_byte, checked_of_wellFormed h]

/-- Every operation's OP byte leads to the decoder of its operands (R103). -/
theorem decodeOp_encodeBytes (hf : i.isFrame = false) (hw : i.WellFormed = true) : decodeOp (encodeBytes i) = .ok i := by
  cases i with
  | reset r m w k => exact decodeReset_bytes r m (of_decide_eq_true hw) k
  | encW | encS => exact decodeEnc_bytes hw
  | seqInc x => exact decodeSeqInc_bytes x
  | seqOff b v => exact decodeSeqOff_bytes b v
  | inWin => exact decodeInWin_bytes hw
  | rcvFrame => exact decodeRcvFrame_bytes hw
  | cksum | decW | decS | sndAck => exact checked_of_wellFormed hw _
  | close | chFail | sndSend | tmrStart | tmrCancel | tmrTick | tmrFire => rfl
  | frameW | frameS => cases hf

/-- An operation is presented at the port of its kind (R103). -/
theorem encodeTxn_of_not_isFrame (hf : i.isFrame = false) :
    encodeTxn i = if i.isEvent then .event (encodeBytes i) else .call (encodeBytes i) := by
  cases i with
  | frameW | frameS => cases hf
  | _ => rfl

/-- What decodes as an operation is let through by the port of its kind. -/
theorem decodeTxn_encodeTxn_of_decodeOp (hf : i.isFrame = false) (h : decodeOp (encodeBytes i) = .ok i) (m : Mode) :
    decodeTxn m (encodeTxn i) = .ok i := by
  rw [encodeTxn_of_not_isFrame hf]
  cases hk : i.isEvent <;> simp [decodeTxn, h, hk]

/-! ## The frames decode as they encode -/

theorem decodeFrame_frameW (eot : Bool) (q : Seq) (cks : Byte) (p : List Byte) (drop : Bool) :
    decodeFrame .win (frameWHeader eot q :: cks :: p) drop = checked .tooLong (.frameW eot q cks p drop) := by
  simp only [decodeFrame, frameWHeader_eot, frameWHeader_seq]

theorem decodeFrame_frameS (r : BitVec 7) (q : BitVec 1) (cks : Byte) (p : List Byte) (drop : Bool) :
    decodeFrame .so (frameSHeader r q :: cks :: p) drop = checked .tooLong (.frameS r q cks p drop) := by
  simp only [decodeFrame, frameSHeader_reserved, frameSHeader_seq]

/-- Settles O3: an operation reads back operand by operand (`decodeOp_encodeBytes`), a frame field by field in the mode of
its format. -/
theorem decodeOfEncode : Obligations.DecodeOfEncode := by
  intro i m hw hm
  cases i with
  | frameW eot q cks p drop =>
    obtain rfl : m = .win := of_decide_eq_true hm
    exact (decodeFrame_frameW eot q cks p drop).trans (checked_of_wellFormed hw _)
  | frameS r q cks p drop =>
    obtain rfl : m = .so := of_decide_eq_true hm
    exact (decodeFrame_frameS r q cks p drop).trans (checked_of_wellFormed hw _)
  | _ => exact decodeTxn_encodeTxn_of_decodeOp rfl (decodeOp_encodeBytes rfl hw) m

/-- Settles O2: the ten words are decoded. -/
theorem sampleWordsDecode : Obligations.SampleWordsDecode :=
  ⟨rfl, rfl, rfl, rfl, rfl, rfl, rfl, rfl, rfl, rfl⟩

/-! ## What decodes is well-formed -/

theorem wellFormed_of_checked {j : Instr} (h : checked e i = .ok j) : j.WellFormed = true := by
  obtain ⟨rfl, hw⟩ := checked_ok h
  exact hw

theorem wellFormed_of_decodeReset (h : decodeReset args = .ok i) : i.WellFormed = true := by
  unfold decodeReset at h
  split at h
  · rename_i w _
    split at h <;> cases h
    exact decide_eq_true w.isLt
  · cases h

theorem wellFormed_of_decodeEnc {mk : Seq → List Byte → Bool → Instr} (h : decodeEnc mk args = .ok i) :
    i.WellFormed = true := by
  unfold decodeEnc at h
  split at h
  · split at h
    · exact wellFormed_of_checked h
    · cases h
  · cases h

theorem wellFormed_of_decodeSeqInc (h : decodeSeqInc args = .ok i) : i.WellFormed = true := by
  unfold decodeSeqInc at h
  split at h
  · split at h <;> cases h
    rfl
  · cases h

theorem wellFormed_of_decodeSeqOff (h : decodeSeqOff args = .ok i) : i.WellFormed = true := by
  unfold decodeSeqOff at h
  split at h
  · split at h <;> cases h
    rfl
  · cases h

theorem wellFormed_of_decodeInWin (h : decodeInWin args = .ok i) : i.WellFormed = true := by
  unfold decodeInWin at h
  split at h
  · split at h
    · exact wellFormed_of_checked h
    · cases h
  · cases h

theorem wellFormed_of_decodeRcvFrame (h : decodeRcvFrame args = .ok i) : i.WellFormed = true := by
  unfold decodeRcvFrame at h
  split at h
  · split at h
    · exact wellFormed_of_checked h
    · cases h
  · cases h

theorem wellFormed_of_decodeBare {j : Instr} (hj : j.WellFormed = true) (h : decodeBare j args = .ok i) :
    i.WellFormed = true := by
  unfold decodeBare at h
  split at h <;> cases h
  exact hj

/-- Each row of the OP map checks its operands (R103). -/
theorem wellFormed_of_decodeOp (h : decodeOp args = .ok i) : i.WellFormed = true := by
  unfold decodeOp at h
  split at h
  · cases h
  · split at h
    · exact wellFormed_of_decodeReset h
    · exact wellFormed_of_decodeBare rfl h
    · exact wellFormed_of_decodeBare rfl h
    · exact wellFormed_of_checked h
    · exact wellFormed_of_decodeEnc h
    · exact wellFormed_of_decodeEnc h
    · exact wellFormed_of_checked h
    · exact wellFormed_of_checked h
    · exact wellFormed_of_decodeSeqInc h
    · exact wellFormed_of_decodeSeqOff h
    · exact wellFormed_of_decodeInWin h
    · exact wellFormed_of_decodeBare rfl h
    · exact wellFormed_of_checked h
    · exact wellFormed_of_decodeBare rfl h
    · exact wellFormed_of_decodeBare rfl h
    · exact wellFormed_of_decodeBare rfl h
    · exact wellFormed_of_decodeBare rfl h
    · exact wellFormed_of_decodeRcvFrame h
    · cases h

theorem wellFormed_of_decodeFrame {d : Datagram} {drop : Bool} (h : decodeFrame m d drop = .ok i) :
    i.WellFormed = true := by
  unfold decodeFrame at h
  split at h
  · split at h <;> exact wellFormed_of_checked h
  · cases h

/-- Settles O4: a port only lets through what `decodeOp` or `decodeFrame` answers. -/
theorem decodedIsWellFormed : Obligations.DecodedIsWellFormed := by
  intro m x i h
  cases x with
  | event bytes | call bytes =>
    simp only [decodeTxn] at h
    split at h
    · split at h <;> cases h
      exact wellFormed_of_decodeOp ‹_›
    · cases h
  | rx d drop => exact wellFormed_of_decodeFrame h
  | channel a => cases h

/-- Settles O5: the fields of byte 0 put together are byte 0, in either format. -/
theorem frameDecodeLosesNothing : Obligations.FrameDecodeLosesNothing := by
  intro m d drop i h
  match d, m with
  | b0 :: cks :: p, .win =>
    rw [(checked_ok h).1, encodeTxn, encodeBytes, frameWHeader_self]
  | b0 :: cks :: p, .so =>
    rw [(checked_ok h).1, encodeTxn, encodeBytes, frameSHeader_self]
  | [], _ => cases h
  | [_], _ => cases h

/-! ## Reserved codes -/

/-- The OP values that R103 gives an operation. -/
def opCodes : List Nat :=
  [0x00, 0x01, 0x02, 0x10, 0x11, 0x12, 0x13, 0x14, 0x20, 0x21, 0x22, 0x30, 0x31, 0x40, 0x41, 0x42, 0x43, 0x50]

/-- Every row of the OP map stands in the table, so an OP value outside it is reserved (R104). -/
theorem decodeOp_reserved {op : Byte} (h : op.toNat ∉ opCodes) (args : List Byte) :
    decodeOp (op :: args) = .error .reservedOp := by
  simp only [decodeOp]
  split
  case h_19 => rfl
  all_goals
    rename_i hop
    simp [hop, opCodes] at h

end Sys2Proof

namespace Sys2Proof.Machine

variable {s t : State} {x : Txn} {rest : List Txn} {d : Datagram}

/-! ## Refusals -/

/-- What is no instruction at the event or call port is refused under the decoder's reason (R104). -/
theorem presentOp_error {e : DecodeError} (h : decodeTxn s.mode x = .error e) :
    presentOp x s = .refused (.rejected e) := by
  unfold presentOp
  rw [h]

theorem step_reservedOp {op : Byte} {args : List Byte} (h : decodeOp (op :: args) = .error .reservedOp)
    (hin : s.inputs = .event (op :: args) :: rest ∨ s.inputs = .call (op :: args) :: rest) :
    step s = .refused (.rejected .reservedOp) := by
  rcases hin with hin | hin
  · exact (step_cons hin).trans (presentOp_error (by simp only [decodeTxn, h]))
  · exact (step_cons hin).trans (presentOp_error (by simp only [decodeTxn, h]))

/-- In a running session an operation of the other role is refused as such (R104, R246). -/
theorem wrongRole_refused {r : Role} (hs : s.Running) (hr : s.role ≠ r) (k : Out) :
    whenLive s (whenRole s r k) = .refused .wrongRole := by
  rw [whenLive_running hs, whenRole_other hr]

/-- The gates of session and role let a running SENDER's own operations through (R104). -/
theorem sending_gates (hs : s.Sending) (k : Out) : whenLive s (whenRole s .sender k) = k := by
  rw [whenLive_running hs.1, whenRole_same hs.2]

theorem receiving_gates (hs : s.Receiving) (k : Out) : whenLive s (whenRole s .receiver k) = k := by
  rw [whenLive_running hs.1, whenRole_same hs.2]

/-- Settles O6: `decodeOp` names no reserved code, and the gates refuse the rest. -/
theorem reservedWrongRoleOrDisabledIsRefused : Obligations.ReservedWrongRoleOrDisabledIsRefused := by
  refine ⟨fun s op args rest hop hin => step_reservedOp (decodeOp_reserved hop args) hin, fun s hs => ?receiver,
    fun s d drop hs => wrongRole_refused hs.1 (by simp [hs.2]) _, fun s hs => ⟨fun hd => ?send, fun hd => ?fire, ?ack⟩⟩
  case receiver =>
    have hw := wrongRole_refused hs.1 (r := .sender) (by simp [hs.2])
    exact ⟨hw _, hw _, hw _, hw _, hw _, fun _ => hw _, fun _ _ _ => hw _⟩
  case send =>
    rw [exec, execSndSend, sending_gates hs, whenEnabled_false]
    simpa [State.canSend, phase_fill_iff hs.1] using hd
  case fire =>
    rw [exec, execTmrFire, sending_gates hs, whenEnabled_false]
    simpa [timer_expired_iff] using hd
  case ack =>
    intro d hd hw
    rw [exec, execSndAck, takeAck, sending_gates hs, whenPresentable_short hd, whenEnabled_false]
    simpa [State.canAck] using hw

/-- A datagram of more than 128 bytes is read as no frame (R101). -/
theorem decodeFrame_tooLong (m : Mode) (h : 128 < d.length) (drop : Bool) :
    decodeFrame m d drop = .error .tooLong := by
  match d, h with
  | b0 :: cks :: p, h =>
    have hlong : ¬ p.length + 2 ≤ Config.maxDgram := Nat.not_le.mpr h
    cases m <;> simp [decodeFrame, checked, Instr.WellFormed, hlong]

/-- Settles O19: each gate refuses the complement of the range it lets through. -/
theorem operandsOutsideTheirRangeAreRefused : Obligations.OperandsOutsideTheirRangeAreRefused := by
  refine ⟨fun s hs => ⟨fun d hd => ?cksum, fun q p l hp => ?encW, fun q p l hp => ?encS, fun y hy => ?seqInc,
    fun b v hv => ?seqOff, fun d hd => ⟨?decW, ?decS⟩⟩, fun s b k v hs hv => ?inWin,
    fun s d drop hd => ⟨fun hs => ?sndAck, fun hs => ?rcvFrame, fun rest hin => ?rxPort⟩⟩
  case cksum =>
    rw [exec, execCksum, whenLive_running hs, whenDomain_false]
    simpa using hd
  case encW =>
    rw [exec, execEncW, whenLive_running hs, whenDomain_false]
    simpa using hp
  case encS =>
    rw [exec, execEncS, whenLive_running hs, whenDomain_false]
    simp [Config.chunk]
    omega
  case seqInc =>
    rw [exec, execSeqInc, whenLive_running hs, whenDomain_false]
    simpa using hy
  case seqOff =>
    rw [exec, execSeqOff, whenLive_running hs, whenDomain_false]
    simp
    omega
  case decW => rw [exec, execDecW, whenLive_running hs, whenPresentable_long hd]
  case decS => rw [exec, execDecS, whenLive_running hs, whenPresentable_long hd]
  case inWin =>
    rw [exec, execInWin, sending_gates hs, whenDomain_false]
    simp
    omega
  case sndAck => rw [exec, execSndAck, takeAck, sending_gates hs, whenPresentable_long hd]
  case rcvFrame => rw [exec, execRcvFrame, takeFrame, receiving_gates hs, whenPresentable_long hd]
  case rxPort =>
    have hlong : decodeTxn s.mode (.rx d drop) = .error .tooLong := decodeFrame_tooLong s.mode hd drop
    rw [step_cons hin, presentTxn, presentRx, hlong]

/-! ## The codec and the functions -/

/-- Settles O14: DEC in the two modes is the two decoders. -/
theorem validFrameIffSum255 : Obligations.ValidFrameIffSum255 := fun d hd =>
  ⟨(dec_ok_iff .win d).trans (and_iff_right hd), (dec_ok_iff .so d).trans (and_iff_right hd)⟩

theorem exec_decS (hs : s.Running) (hd : d.length ≤ 128) :
    exec (.decS d) s = .next { s with result := .decoded (decodeS d) } := by
  rw [exec, execDecS, whenLive_running hs, whenPresentable_short hd, State.returning]

/-- Settles O11: DEC.S leaves `decodeS` at the result port, and that is SHORT, CKSUM or the fields. -/
theorem decSResult : Obligations.DecSResult := by
  intro d s hs hd
  rw [exec_decS hs hd]
  refine ⟨fun h => by rw [decodeS_short h], fun h2 hsum => ?_, fun b0 b1 p hp hsum => ?_⟩
  · match d, h2 with
    | b0 :: b1 :: p, _ => rw [decodeS_cons, if_neg hsum]
  · subst hp
    rw [decodeS_cons, if_pos hsum]

/-- Settles O20: a function that answers has only left its result (`exec_function_next`). -/
theorem functionsChangeOnlyTheResult : Obligations.FunctionsChangeOnlyTheResult := by
  intro s t i hi h
  have hf : isFunction i = true := by
    cases i with
    | cksum | encW | encS | decW | decS | seqInc | seqOff | inWin => rfl
    | _ => exact hi.elim
  obtain ⟨-, r, rfl⟩ := exec_function_next hf h
  rfl

/-! ## An ack in the window -/

/-- The window is no larger than the number space (R10, R22). -/
theorem RegInv.weff_le (h : RegInv s) : s.weff ≤ s.n := by
  have hw := h.window.2
  cases hm : s.mode <;> simp only [State.weff, State.n, hm, modulus] <;> omega

/-- The frame at place `i` of OUT has a number `i` past the base (R30). -/
theorem WindowInv.seqOff_entry (h : WindowInv s) (hr : RegInv s) {i : Nat} {f : Datagram} {q : Seq} {e : Bool}
    {p : List Byte} (hf : s.out[i]? = some f) (hd : dec s.mode f = .ok q e p) : seqOff s.n s.sBase q = i := by
  obtain ⟨q', e', p', hd', hq, -⟩ := h.entries i f hf
  obtain ⟨rfl, -, -⟩ : q = q' ∧ e = e' ∧ p = p' := by simpa [hd] using hd'
  have hi : i < s.outCnt := (List.getElem?_eq_some_iff.mp hf).1
  exact seqOff_of_add hr.seq_lt.1 (hi.trans_le (hr.outBound.trans hr.weff_le)) hq

/-- Settles O23: the accepted ack is `State.acceptAck_eq`; a stored frame's place is its distance from the base
(`WindowInv.seqOff_entry`), so SEQLE compares places. -/
theorem sndAckAccepted : Obligations.SndAckAccepted := by
  intro s d a eot p off hs hw hlen hd hoff hin
  have hlt : a.toNat < modulus s.mode := dec_seq_lt hd
  obtain rfl : seqOff s.n s.sBase a = off := (seqOff_eq hlt).trans hoff.symm
  refine ⟨⟨seqInc s.n a, seqInc_toNat hlt, ?_⟩, fun hr hwin i f q e r hf hq => ?_⟩
  · rw [← State.acceptAck_eq, ← State.ackEffect_accepted hd hin]
    exact execSndAck_next.mpr ⟨hs, hlen, hw, rfl⟩
  · rw [seqLe_iff, hwin.seqOff_entry hr hf hq, Nat.lt_succ_iff]

/-! ## Frames at a RECEIVER -/

/-- What arrives at a RECEIVER is what RCV.FRAME takes (R236). -/
theorem arrive_eq_rcvFrame (hs : s.Receiving) (hd : d.length ≤ 128) (drop : Bool) :
    ∃ t, arrive d drop s = .next t ∧ exec (.rcvFrame d drop) s = .next t :=
  ⟨_, arrive_receiving hs hd drop, execRcvFrame_next.mpr ⟨hs, hd, rfl⟩⟩

/-- Settles O46: a frame of either format is the arrival of its bytes, header first. -/
theorem framesReachTheReceiver : Obligations.FramesReachTheReceiver := by
  intro s hs
  refine ⟨fun eot q cks p drop hp => ⟨frameWHeader eot q, ?_⟩, fun r q cks p drop hp => ⟨frameSHeader r q, ?_⟩⟩
  · obtain ⟨t, ht⟩ := arrive_eq_rcvFrame (d := frameWHeader eot q :: cks :: p) hs (by simp; omega) drop
    exact ⟨t, frameWHeader_toNat eot q, ht⟩
  · obtain ⟨t, ht⟩ := arrive_eq_rcvFrame (d := frameSHeader r q :: cks :: p) hs (by simp; omega) drop
    exact ⟨t, frameSHeader_toNat r q, ht⟩

end Sys2Proof.Machine
end

section
/-! The frame codec family: CKSUM, ENC.W, ENC.S and DEC.W as called (O7 to O10), the round trip (O12), the change of a single
byte (O13), the bytes of an ack (O15). -/

namespace Sys2Proof.Machine

variable {s : State} {d : Datagram} {q : Seq} {p : List Byte}

/-! ## Frames and their byte 0 -/

/-- The fields DEC answers are read from byte 0 and payload of a frame that ENC assembles (R102, R126). -/
theorem decodeWith_ok {read : Byte → List Byte → Decoded} {e : Bool} (h : decodeWith read d = .ok q e p) :
    ∃ b0 p', d = assemble b0 p' ∧ read b0 p' = .ok q e p := by
  match d, h with
  | b0 :: b1 :: p', h =>
    rw [decodeWith_cons] at h
    split at h
    · exact ⟨b0, p', (assemble_self ‹_›).symm, h⟩
    · cases h

/-- A datagram with a whole header whose bytes do not sum to 255 fails the checksum in either format (R102). -/
theorem decodeWith_invalid (read : Byte → List Byte → Decoded) (h2 : 2 ≤ d.length) (h : natSum d % 256 ≠ 255) :
    decodeWith read d = .corrupt .cksum := by
  match d, h2 with
  | b0 :: b1 :: p, _ => rw [decodeWith_cons, if_neg h]

theorem assemble_head? (b0 : Byte) (p : List Byte) : (assemble b0 p).head? = some b0 := by
  obtain ⟨c, h, -⟩ := assemble_eq b0 p
  rw [h, List.head?_cons]

theorem assemble_inj_left {a b : Byte} : assemble a p = assemble b p ↔ a = b := by
  refine ⟨fun h => ?_, fun h => by rw [h]⟩
  simpa [assemble_head?] using congrArg List.head? h

/-- Byte 0 of a format-S frame is the number itself (R92). -/
theorem zeroExtend_seq_toNat (q : Seq) : (q.zeroExtend 8).toNat = q.toNat :=
  BitVec.toNat_setWidth_of_le (by decide)

/-- Byte 0 is the parity read from it exactly when its bits 7:1 are 0 (R100, R126). -/
theorem parity_eq_self_iff (b : Byte) : ((b.extractLsb' 0 1).zeroExtend 7 : Seq).zeroExtend 8 = b ↔ b.toNat < 2 := by
  have hparity : (BitVec.ofNat 7 (b.toNat % 2)).toNat = b.toNat % 2 := Nat.mod_eq_of_lt (by omega)
  rw [← BitVec.toNat_inj, zeroExtend_seq_toNat, low_bit, hparity]
  omega

/-! ## The round trip -/

/-- R126, format W, backward. -/
theorem encodeW_of_decodeW {e : Bool} (h : decodeW d = .ok q e p) : encodeW q p e = d := by
  obtain ⟨b0, p', rfl, hread⟩ := decodeWith_ok h
  cases hread
  exact congrArg (assemble · p) (frameWHeader_self b0)

/-- R126, format S, backward: the reserved bits are not encoded. -/
theorem encodeS_of_decodeS_iff {e : Bool} (h : decodeS d = .ok q e p) (last : Bool) :
    encodeS q p last = d ↔ ∀ b0 ∈ d.head?, b0.toNat < 2 := by
  obtain ⟨b0, p', rfl, hread⟩ := decodeWith_ok h
  cases hread
  rw [encodeS, assemble_inj_left, parity_eq_self_iff, assemble_head?]
  simp

/-- Settles O12: forward, DEC reads the fields ENC assembled; backward, a valid frame is assembled from its own byte 0. -/
theorem codecRoundTrip : Obligations.CodecRoundTrip :=
  ⟨fun q p l _ => decodeW_encodeW q p l, fun q p l hq _ => decodeS_encodeS q p l hq,
    fun _ _ _ _ h _ => encodeW_of_decodeW h, fun _ _ _ last _ h _ => encodeS_of_decodeS_iff h last⟩

/-! ## A single byte changed -/

/-- The sum moves by less than 256, and not by 0 (R127). -/
theorem natSum_set_invalid {i : Nat} {b c : Byte} (hsum : natSum d % 256 = 255) (hc : d[i]? = some c) (hne : c ≠ b) :
    natSum (d.set i b) % 256 ≠ 255 := by
  have hset := natSum_set b hc
  have hlt := c.isLt
  have hlt' := b.isLt
  have hne' : c.toNat ≠ b.toNat := fun h => hne (BitVec.eq_of_toNat_eq h)
  omega

/-- Settles O13: the changed frame keeps its length but not its sum, and both decoders check the sum. -/
theorem singleByteChangeIsDetected : Obligations.SingleByteChangeIsDetected := by
  intro d i b ⟨h2, hsum⟩ hi hne
  have hc : d[i]? = some d[i] := List.getElem?_eq_getElem hi
  have hlen : 2 ≤ (d.set i b).length := by rwa [List.length_set]
  have hinv : natSum (d.set i b) % 256 ≠ 255 := natSum_set_invalid hsum hc fun h => hne (hc.trans (congrArg some h))
  exact ⟨decodeWith_invalid _ hlen hinv, decodeWith_invalid _ hlen hinv⟩

/-! ## The functions as called -/

theorem exec_cksum (hs : s.Running) (hd : 2 ≤ d.length) :
    exec (.cksum d) s = .next { s with result := .byte (cksum d) } := by
  rw [exec, execCksum, whenLive_running hs, whenDomain_true (decide_eq_true hd), State.returning]

theorem exec_encW (hs : s.Running) (hp : p.length ≤ 124) (q : Seq) (last : Bool) :
    exec (.encW q p last) s = .next { s with result := .frame (encodeW q p last) } := by
  rw [exec, execEncW, whenLive_running hs, whenDomain_true (decide_eq_true hp), State.returning]

theorem exec_encS (hs : s.Running) (hq : q.toNat < 2) (hp : p.length ≤ 124) (last : Bool) :
    exec (.encS q p last) s = .next { s with result := .frame (encodeS q p last) } := by
  rw [exec, execEncS, whenLive_running hs, whenDomain_true (by simp [hq, hp]), State.returning]

theorem exec_decW (hs : s.Running) (hd : d.length ≤ 128) :
    exec (.decW d) s = .next { s with result := .decoded (decodeW d) } := by
  rw [exec, execDecW, whenLive_running hs, whenPresentable_short hd, State.returning]

/-- Settles O7: CKSUM leaves `cksum` at the result port (`cksum_toNat`). -/
theorem cksumIsComplementOfSum : Obligations.CksumIsComplementOfSum := fun d _ hs hd =>
  ⟨cksum d, exec_cksum hs hd, cksum_toNat d⟩

theorem validFrame_of_sum {b0 b1 : Byte} (h : natSum (b0 :: b1 :: p) % 256 = 255) : ValidFrame (b0 :: b1 :: p) :=
  ⟨by simp, h⟩

/-- Settles O8: ENC.W leaves the frame assembled from `{last, seq}` and the payload (`assemble_eq`). -/
theorem encWBuildsFrame : Obligations.EncWBuildsFrame := by
  intro q p last s hs hp
  obtain ⟨c, hframe, hsum⟩ := assemble_eq (frameWHeader last q) p
  have henc : encodeW q p last = frameWHeader last q :: c :: p := hframe
  exact ⟨_, c, henc ▸ exec_encW hs hp q last, frameWHeader_toNat last q, validFrame_of_sum hsum⟩

/-- Settles O9: ENC.S leaves the frame assembled from the parity and the payload, whatever `last` (`assemble_eq`). -/
theorem encSBuildsFrame : Obligations.EncSBuildsFrame := by
  intro q p s hs hq hp
  obtain ⟨c, hframe, hsum⟩ := assemble_eq (q.zeroExtend 8) p
  have henc : ∀ last, encodeS q p last = q.zeroExtend 8 :: c :: p := fun _ => hframe
  exact ⟨_, c, fun last => henc last ▸ exec_encS hs hq hp last, zeroExtend_seq_toNat q, validFrame_of_sum hsum⟩

/-- Settles O10: DEC.W leaves `decodeW` at the result port, and that is SHORT, CKSUM or the fields. -/
theorem decWResult : Obligations.DecWResult := by
  intro d s hs hd
  rw [exec_decW hs hd]
  refine ⟨fun h => by rw [decodeW_short h], fun h2 hsum => ?_, fun b0 b1 p hp hsum => ?_⟩
  · rw [decodeW, decodeWith_invalid _ h2 hsum]
  · subst hp
    rw [decodeW_cons, if_pos hsum]

/-! ## The ack -/

/-- A frame without payload is its byte 0 and the complement (R125). -/
theorem assemble_nil (b0 : Byte) : ∃ b1 : Byte, assemble b0 [] = [b0, b1] ∧ b1.toNat = 255 - b0.toNat := by
  obtain ⟨c, hframe, hsum⟩ := assemble_eq b0 []
  refine ⟨c, hframe, ?_⟩
  simp only [natSum] at hsum
  omega

/-- The end flag of an ack is 0, so byte 0 is the number in both formats (R125). -/
theorem encAck_eq_assemble (m : Mode) (x : Seq) : ∃ b0 : Byte, encAck m x = assemble b0 [] ∧ b0.toNat = x.toNat := by
  cases m with
  | so => exact ⟨_, rfl, zeroExtend_seq_toNat x⟩
  | win => exact ⟨_, rfl, (frameWHeader_toNat false x).trans (Nat.zero_add _)⟩

/-- Settles O15: an ack is a frame without payload whose byte 0 is the number. -/
theorem ackFrameBytes : Obligations.AckFrameBytes := by
  intro m x _
  obtain ⟨b0, hack, hb0⟩ := encAck_eq_assemble m x
  obtain ⟨b1, hframe, hb1⟩ := assemble_nil b0
  exact ⟨b0, b1, hack.trans hframe, hb0, hb0 ▸ hb1⟩

end Sys2Proof.Machine
end

section
/-! The sequence and window arithmetic family: SEQINC, SEQOFF and INWIN as called (O16 to O18). -/

namespace Sys2Proof.Machine

variable {s : State} {base v : Seq}

/-! ## The functions as called -/

theorem exec_seqInc (hs : s.Running) (hv : v.toNat < s.n) :
    exec (.seqInc v) s = .next { s with result := .seq (seqInc s.n v) } := by
  rw [exec, execSeqInc, whenLive_running hs, whenDomain_true (decide_eq_true hv), State.returning]

theorem exec_seqOff (hs : s.Running) (hb : base.toNat < s.n) (hv : v.toNat < s.n) :
    exec (.seqOff base v) s = .next { s with result := .offset (seqOff s.n base v) } := by
  rw [exec, execSeqOff, whenLive_running hs, whenDomain_true (by simp [hb, hv]), State.returning]

theorem exec_inWin {size : Nat} (hs : s.Sending) (hb : base.toNat < s.n) (hk : size ≤ s.n) (hv : v.toNat < s.n) :
    exec (.inWin base size v) s = .next { s with result := .bool (inWindow s.n base size v) } := by
  rw [exec, execInWin, sending_gates hs, whenDomain_true (by simp [hb, hk, hv]), State.returning]

/-- Settles O16: SEQINC leaves `seqInc` at the result port (`seqInc_toNat`). -/
theorem seqIncResult : Obligations.SeqIncResult := fun x s hs hx =>
  ⟨seqInc s.n x, exec_seqInc hs hx, seqInc_toNat hx⟩

/-! ## The circular distance -/

theorem seqOff_self (n : Nat) (base : Seq) : seqOff n base base = 0 := by
  rw [seqOff, if_pos le_rfl, Nat.sub_self]

/-- The successor of `v` is the number one place after `v`, so it is one further from the base, around the ring (R141). -/
theorem seqOff_seqInc {m : Mode} (hb : base.toNat < modulus m) (hv : v.toNat < modulus m) :
    seqOff (modulus m) base (seqInc (modulus m) v) = (seqOff (modulus m) base v + 1) % modulus m := by
  have hnext := seqInc_add (add_seqOff hb hv).symm
  exact seqOff_of_add hb (mod_modulus_lt m _) (by rw [hnext, Nat.add_mod_mod])

/-- Settles O17: SEQOFF leaves `seqOff` at the result port, the difference modulo `N` (`seqOff_eq`). -/
theorem seqOffResult : Obligations.SeqOffResult := by
  intro base v s hs hb hv
  have hdiff : seqOff s.n base v = (v.toNat + s.n - base.toNat) % s.n := seqOff_eq hv
  exact ⟨hdiff ▸ exec_seqOff hs hb hv, seqOff_self s.n base, seqOff_seqInc hb hv, add_seqOff hb hv⟩

/-! ## The window -/

/-- The `size` numbers from the base on are those at a distance below `size`: no two of at most `N` coincide (R143). -/
theorem mem_window_iff {m : Mode} {size : Nat} (hb : base.toNat < modulus m) (hk : size ≤ modulus m)
    (hv : v.toNat < modulus m) :
    (∃ i, i < size ∧ (base.toNat + i) % modulus m = v.toNat) ↔ seqOff (modulus m) base v < size := by
  constructor
  · rintro ⟨i, hi, hplace⟩
    rwa [seqOff_of_add hb (hi.trans_le hk) hplace.symm]
  · intro hoff
    exact ⟨seqOff (modulus m) base v, hoff, add_seqOff hb hv⟩

/-- Settles O18: INWIN leaves `inWindow` at the result port, the bound on SEQOFF (`inWindow_iff`), which is membership
(`mem_window_iff`). -/
theorem inWinResult : Obligations.InWinResult := by
  intro base size v s hs hb hk hv
  have hin : inWindow s.n base size v = true ↔ seqOff s.n base v < size := inWindow_iff hb hv
  exact ⟨_, exec_inWin hs hb hk hv, hin.trans (mem_window_iff hb hk hv).symm, hin⟩

end Sys2Proof.Machine
end

section
/-! The sender family: SND.SEND (O21), what the sender's operations leave unchanged (O28), the timer armed exactly when it
must be (O54), and phase DONE (O30). -/

namespace Sys2Proof.Machine

variable {s t : State} {i : Instr}

/-! ## SND.SEND -/

/-- Settles O21: in phase FILL the send is its body, all fields at once (`State.sendEffect_eq`), and the next number is the
successor (R140). -/
theorem sndSendResult : Obligations.SndSendResult := by
  intro s hs hroom he hnext
  refine ⟨_, _, seqInc s.n s.sNext, rfl, seqInc_toNat hnext, ?_⟩
  exact execSndSend_next.mpr ⟨hs, hroom, he, (State.sendEffect_eq he).symm⟩

/-! ## What the sender's operations leave unchanged -/

/-- Settles O28: each operation's next state is `s` with the fields it writes. -/
theorem senderFrame : Obligations.SenderFrame := by
  refine fun s t => ⟨fun h => ?send, fun d h => ?ack, fun i hi h => ?timer⟩
  case send =>
    obtain ⟨-, -, he, ht⟩ := execSndSend_next.mp h
    rw [State.sendEffect_eq he] at ht
    subst ht
    exact ⟨rfl, List.prefix_append _ _⟩
  case ack =>
    obtain ⟨-, -, -, rfl⟩ := execSndAck_next.mp h
    exact ⟨s.ackEffect_frame d, s.ackEffect_out_suffix d⟩
  case timer =>
    cases i with
    | tmrStart =>
      obtain ⟨-, rfl⟩ := execTmrStart_next.mp h
      exact ⟨rfl, fun _ => ⟨rfl, rfl⟩⟩
    | tmrCancel =>
      obtain ⟨-, rfl⟩ := execTmrCancel_next.mp h
      exact ⟨rfl, fun _ => ⟨rfl, rfl⟩⟩
    | tmrTick =>
      obtain ⟨-, rfl⟩ := execTmrTick_next.mp h
      exact ⟨rfl, fun _ => ⟨rfl, rfl⟩⟩
    | tmrFire =>
      obtain ⟨-, -, -, rfl⟩ := execTmrFire_next.mp h
      exact ⟨rfl, fun hne => absurd rfl hne⟩
    | _ => exact hi.elim

/-! ## The timer invariant, one lemma per kind of update -/

/-- The invariant reads `T_ARMED`, `S_STARTED`, `S_EOF` and OUT alone, in the session's mode (R187). -/
theorem TimerInv.congr (h : TimerInv s) (hm : t.mode = s.mode) (ha : t.tArmed = s.tArmed) (hst : t.sStarted = s.sStarted)
    (he : t.sEof = s.sEof) (ho : t.out = s.out) : TimerInv t where
  windowed := by simpa only [hm, ha, hst, he, ho] using h.windowed
  single := by simpa only [hm, ha, ho] using h.single

/-- A new session has sent nothing and its timer is idle (R45). -/
theorem TimerInv.newSession (s : State) (r : Role) (m : Mode) (w k : Nat) : TimerInv (s.newSession r m w k) where
  windowed := by simp
  single := by simp

/-- SND.SEND leaves the timer armed: it starts it, or the source not having ended, it was running since the first send
(R153). -/
theorem TimerInv.sendEffect (h : TimerInv s) (he : s.sEof = false) : TimerInv s.sendEffect := by
  have harmed : (if s.mode = .so ∨ s.sStarted = false then true else s.tArmed) = true := by
    split
    · rfl
    · rename_i hlater
      obtain ⟨hm, hst⟩ := not_or.mp hlater
      have hwin : s.mode = .win := by
        cases hmode : s.mode with
        | win => rfl
        | so => exact absurd hmode hm
      exact (h.windowed hwin).mpr ⟨by simpa using hst, by simp [he]⟩
  rw [State.sendEffect_eq he]
  exact ⟨fun _ => by simp [harmed], fun _ => by simp [harmed]⟩

/-- In phase WAIT something has been sent: the source has ended or the window is full (R28). -/
theorem RegInv.started_of_wait (h : RegInv s) (hs : s.Running) (hw : s.phase = .wait) : s.sStarted = true := by
  refine h.started ?_
  rcases (phase_wait_iff hs).mp hw with ⟨he, -⟩ | ⟨-, hfull⟩
  · exact .inl he
  · have hpos : 0 < s.weff := by
      have := h.window.1
      cases hm : s.mode <;> simp only [State.weff, hm] <;> omega
    exact .inr (List.ne_nil_of_length_pos (hpos.trans_le hfull))

/-- An accepted ack arms the timer in mode WIN unless all is sent and acknowledged (R175); in mode SO it empties OUT. -/
theorem TimerInv.acceptAck (hr : RegInv s) (hst : s.sStarted = true) (a : Seq) (k : Nat) :
    TimerInv (s.acceptAck a (k + 1)) := by
  rw [State.acceptAck_eq]
  constructor
  case windowed =>
    intro (hm : s.mode = .win)
    have hempty : s.out.drop (k + 1) = [] ↔ s.outCnt ≤ k + 1 := List.drop_eq_nil_iff
    simp only [hm, hst, hempty, decide_eq_true_iff, true_and]
  case single =>
    intro (hm : s.mode = .so)
    have hone : s.outCnt ≤ 1 := by simpa [State.weff, hm] using hr.outBound
    have hempty : s.out.drop (k + 1) = [] := List.drop_eq_nil_of_le (hone.trans (Nat.le_add_left 1 k))
    simp [hm, hempty]

theorem TimerInv.ackEffect (h : TimerInv s) (hr : RegInv s) (hs : s.Running) (hw : s.phase = .wait) (d : Datagram) :
    TimerInv (s.ackEffect d) := by
  rcases s.ackEffect_cases d with ht | ⟨a, e, p, -, -, ht⟩
  · rwa [ht]
  · exact ht ▸ TimerInv.acceptAck hr (hr.started_of_wait hs hw) a _

/-! ## Every step -/

/-- Every instruction but the sub-operations, whose callers use them, keeps the timer of a session that runs on. -/
theorem ExecCase.timerInv (hc : ExecCase i s t) (hsub : i.isSub = false) (h : s.TimerOk) (hrun : t.Running) :
    TimerInv t := by
  cases hc with
  | reset r m w k hi hp ht => exact ht ▸ TimerInv.newSession s r m w k
  | close hi hs ht => simp [ht, State.Running] at hrun
  | chFail hi hs ht => simp [ht, State.Running, State.enterFatal_eq] at hrun
  | send hi hs hf he ht => exact ht ▸ ((h hs.1.1).2 hs.1).sendEffect he
  | ack d hi hs hw ht => exact ht ▸ ((h hs.1.1).2 hs.1).ackEffect (h hs.1.1).1 hs.1 hw d
  | start hi | cancel hi => simp [hi, Instr.isSub] at hsub
  | frame d drop hi hs ht =>
    rw [State.frameEffect_frame] at ht
    subst ht
    exact ((h hs.1.1).2 hs.1).congr rfl rfl rfl rfl rfl
  | function | held | tick | fire | lost =>
    rename_i ht
    subst ht
    exact ((h hrun.1).2 hrun).congr rfl rfl rfl rfl rfl

theorem State.TimerOk.regsOk (h : s.TimerOk) : s.RegsOk := fun hl => (h hl).1

theorem SameEngine.timerOk (hq : SameEngine s t) (h : s.TimerOk) : t.TimerOk := by
  intro hl
  refine ⟨hq.regsOk h.regsOk hl, fun hrun => ?_⟩
  rw [hq] at hl hrun ⊢
  exact ((h hl).2 hrun).congr rfl rfl rfl rfl rfl

/-- Settles O54: each instruction keeps the ranges of the registers (O52) and, while the session runs, the timer
(`ExecCase.timerInv`); what only moves datagrams touches neither. -/
theorem stepKeepsTimer : Obligations.StepKeepsTimer := fun _ _ h hst =>
  step_keeps (P := State.TimerOk) SameEngine.timerOk
    (fun hc hsub h hl => ⟨hc.regsOk h.regsOk hl, hc.timerInv hsub h⟩) h hst

/-! ## Phase DONE -/

/-- With the source ended and nothing outstanding the timer is idle, in either mode (R187). -/
theorem TimerInv.idle_of_done (h : TimerInv s) (he : s.sEof = true) (ho : s.out = []) : s.tArmed = false := by
  refine Bool.eq_false_iff.mpr fun ha => ?_
  cases hm : s.mode with
  | win => exact ((h.windowed hm).mp ha).2 ⟨ho, he⟩
  | so => exact (h.single hm).mp ha ho

/-- Settles O30: in DONE the timer is idle, so every enabling condition is false (O6) and a tick has nothing to count. -/
theorem doneIsSilent : Obligations.DoneIsSilent := by
  intro s hs hok hdone
  obtain ⟨he, ho⟩ := (phase_done_iff hs.1).mp hdone
  have hidle := ((hok hs.1.1).2 hs.1).idle_of_done he ho
  obtain ⟨-, -, -, hdisabled⟩ := reservedWrongRoleOrDisabledIsRefused
  obtain ⟨hsend, hfire, hack⟩ := hdisabled s hs
  exact ⟨hidle, hsend (by simp [he]), hfire (by simp [hidle]), execTmrTick_next.mpr ⟨hs, by rw [if_neg (by simp [hidle])]⟩,
    fun d hd => hack d hd (by simp [hdone])⟩

end Sys2Proof.Machine
end

section
/-! The ack processor family: acks that change nothing (O24), a second copy of an accepted ack (O25), an ack of a frame never
sent (O26). -/

namespace Sys2Proof.Machine

variable {s : State} {d : Datagram} {a : Seq} {e : Bool} {p : List Byte}

/-! ## What SND.ACK's body does to the registers its test reads -/

@[simp] theorem State.ackEffect_mode (s : State) (d : Datagram) : (s.ackEffect d).mode = s.mode := by
  rw [State.ackEffect_frame]

@[simp] theorem State.ackEffect_sEof (s : State) (d : Datagram) : (s.ackEffect d).sEof = s.sEof := by
  rw [State.ackEffect_frame]

theorem sending_ackEffect (hs : s.Sending) (d : Datagram) : (s.ackEffect d).Sending := by
  rw [State.ackEffect_frame]
  exact hs

/-- An accepted ack moves the base to the number after it (R174). -/
theorem State.ackEffect_sBase (hd : dec s.mode d = .ok a e p) (hin : seqOff s.n s.sBase a < s.weff) :
    (s.ackEffect d).sBase = seqInc s.n a := by
  rw [State.ackEffect_accepted hd hin, State.acceptAck_eq]

/-- In phase WAIT a SENDER takes any datagram the RX port can present (R150, R170). -/
theorem exec_sndAck_waiting (hs : s.Sending) (hw : s.phase = .wait) (hlen : d.length ≤ 128) :
    exec (.sndAck d) s = .next (s.ackEffect d) := execSndAck_next.mpr ⟨hs, hlen, hw, rfl⟩

/-- A valid ack outside the window changes nothing (R173). -/
theorem State.ackEffect_outside (hd : dec s.mode d = .ok a e p) (hout : s.weff ≤ seqOff s.n s.sBase a) :
    s.ackEffect d = s := by
  refine State.ackEffect_ignored fun a' e' p' hd' => ?_
  obtain ⟨rfl, -, -⟩ : a = a' ∧ e = e' ∧ p = p' := by simpa [hd] using hd'
  exact hout

/-- Settles O24: a corrupt datagram names no number, and a number in range is at the distance `seqOff` (`seqOff_eq`). -/
theorem sndAckIgnored : Obligations.SndAckIgnored := by
  intro s d hs hw hlen h
  have hsame : s.ackEffect d = s := by
    rcases h with ⟨c, hcorrupt⟩ | ⟨a, e, p, hd, hfar⟩
    · exact State.ackEffect_ignored (by simp [hcorrupt])
    · have hoff : seqOff s.n s.sBase a = (a.toNat + s.n - s.sBase.toNat) % s.n := seqOff_eq (dec_seq_lt hd)
      exact State.ackEffect_outside hd (hoff ▸ hfar)
  rw [exec_sndAck_waiting hs hw hlen, hsame]

/-! ## A second copy -/

/-- With the window as wide as the number space, the ack of the number before the base acknowledges all that OUT can hold,
and the base stays (R177). -/
theorem State.ackEffect_before_base (hd : dec s.mode d = .ok a e p) (hbase : s.sBase = seqInc s.n a)
    (hfull : s.weff = s.n) (hcnt : s.outCnt ≤ s.weff) : (s.ackEffect d).out = [] ∧ (s.ackEffect d).sBase = s.sBase := by
  have hn := modulus_le s.mode
  have hpast : seqOff s.n s.sBase a = s.n - 1 := hbase ▸ seqOff_past (dec_seq_lt hd)
  have hin : seqOff s.n s.sBase a < s.weff := by
    rw [hpast, hfull, State.n]
    omega
  have hall : s.out.length ≤ s.n - 1 + 1 := hcnt.trans (by omega)
  refine ⟨?_, (State.ackEffect_sBase hd hin).trans hbase.symm⟩
  rw [State.ackEffect_accepted hd hin, State.acceptAck_eq, hpast]
  exact List.drop_eq_nil_of_le hall

/-- Settles O25: after the first copy the base is the number after `a`, so `a` is `N - 1` past it (`seqOff_past`): outside the
window (`State.ackEffect_outside`) or, in the widest one, an ack of everything (`State.ackEffect_before_base`). -/
theorem repeatedAckDoesNotAdvance : Obligations.RepeatedAckDoesNotAdvance := by
  intro s t d a eot p hs hr hd hin h
  obtain ⟨-, hlen, hw, ht⟩ := execSndAck_next.mp h
  have hsend : t.Sending := ht ▸ sending_ackEffect hs d
  have hreg : RegInv t := ht ▸ hr.ackEffect hs hw d
  have hmode : t.mode = s.mode := ht ▸ s.ackEffect_mode d
  have hbase : t.sBase = seqInc t.n a := by
    rw [ht, State.ackEffect_sBase hd hin, State.n, State.n, State.ackEffect_mode]
  rw [← hmode] at hd
  have hn : 1 < t.n := (modulus_le t.mode).1
  have hpast : seqOff t.n t.sBase a = t.n - 1 := hbase ▸ seqOff_past (dec_seq_lt hd)
  obtain ⟨-, -, -, hdisabled⟩ := reservedWrongRoleOrDisabledIsRefused
  obtain ⟨-, -, hack⟩ := hdisabled t hsend
  refine ⟨hpast, fun hle => hpast ▸ hle, fun hfull => by omega, hack d hlen,
    fun hwait => ⟨fun hle => ?outside, fun hfull => ?widest⟩⟩
  case outside =>
    rw [exec_sndAck_waiting hsend hwait hlen, State.ackEffect_outside hd (hpast ▸ hle)]
  case widest =>
    exact ⟨_, exec_sndAck_waiting hsend hwait hlen, State.ackEffect_before_base hd hbase hfull hreg.outBound⟩

/-! ## An ack of a frame never sent -/

/-- An ack sets `F_ACKUNSENT` only for a frame that OUT does not hold, though the window has its number (R176). -/
theorem State.outCnt_lt_weff_of_ackUnsent (hu : s.fAckUnsent = false) (hset : (s.ackEffect d).fAckUnsent = true) :
    s.outCnt < s.weff := by
  rcases s.ackEffect_cases d with ht | ⟨a, e, p, -, hin, ht⟩
  · simp [ht, hu] at hset
  · have hunsent : s.outCnt < seqOff s.n s.sBase a + 1 := by simpa [ht, State.acceptAck_eq, hu] using hset
    omega

/-- Settles O26: the ack keeps the ranges of the registers (`RegInv.ackEffect`), and these allow `F_ACKUNSENT` only in mode WIN
with the source ended and OUT empty, which is phase DONE. -/
theorem unsentAckLeavesDone : Obligations.UnsentAckLeavesDone := by
  intro s t d hs hr hu h hset
  obtain ⟨-, -, hw, rfl⟩ := execSndAck_next.mp h
  obtain ⟨hmode, heof, hout⟩ := (hr.ackEffect hs hw d).unsent hset
  have hdone := (phase_done_iff (running_ackEffect hs.1 d)).mpr ⟨heof, hout⟩
  exact ⟨s.ackEffect_mode d ▸ hmode, s.ackEffect_sEof d ▸ heof, State.outCnt_lt_weff_of_ackUnsent hu hset, hdone,
    List.length_eq_zero_iff.mpr hout⟩

end Sys2Proof.Machine
end

section
/-! The timer family: TMR.CANCEL, TMR.TICK and TMR.FIRE as called (O32 to O34), and what is left to happen after CLOSE or
CH.FAIL (O57). -/

namespace Sys2Proof.Machine

variable {s t : State} {i : Instr}

/-! ## The timer's operations -/

/-- TMR.FIRE has nothing to do unless the timer is EXPIRED (R183). -/
theorem exec_tmrFire_disabled (hs : s.Sending) (h : ¬ (s.tArmed = true ∧ s.tCnt = 0)) :
    exec .tmrFire s = .refused .notEnabled := by
  obtain ⟨-, -, -, hdisabled⟩ := reservedWrongRoleOrDisabledIsRefused
  obtain ⟨-, hfire, -⟩ := hdisabled s hs
  exact hfire h

/-- Settles O32: the SENDER still runs after the cancel, so it may cancel again; its timer is IDLE, so TMR.FIRE is
disabled. -/
theorem tmrCancelResult : Obligations.TmrCancelResult := by
  intro s hs
  have hsend : State.Sending { s with tArmed := false, tCnt := 0 } := hs
  exact ⟨execTmrCancel_next.mpr ⟨hs, rfl⟩, execTmrCancel_next.mpr ⟨hsend, rfl⟩, exec_tmrFire_disabled hsend (by simp)⟩

/-- Settles O33: a running SENDER is all that TMR.TICK asks for. -/
theorem tmrTickResult : Obligations.TmrTickResult := fun _ hs => execTmrTick_next.mpr ⟨hs, rfl⟩

/-- Settles O34: TX of the list OUT hands it over in order (`execTmrFire_next`), and a timer that is not armed or still counts
is not EXPIRED. -/
theorem tmrFireResult : Obligations.TmrFireResult := by
  intro s hs
  refine ⟨fun ha hc => execTmrFire_next.mpr ⟨hs, ha, hc, rfl⟩, fun h => exec_tmrFire_disabled hs ?_⟩
  rintro ⟨ha, hc⟩
  rcases h with hidle | hcounts
  · simp [hidle] at ha
  · omega

/-! ## After the end -/

theorem not_running_of_over (h : s.failed = true ∨ s.closed = true) : ¬ s.Running := by
  rintro ⟨-, hfailed, hclosed⟩
  simp [hfailed, hclosed] at h

theorem SameEngine.running_iff (h : SameEngine s t) : t.Running ↔ s.Running := by
  rw [h]
  rfl

/-- Outside a running session an instruction moves datagrams at most, unless it is a RESET (R223, R260). -/
theorem ExecCase.outside_session (hc : ExecCase i s t) (hs : ¬ s.Running) :
    SameEngine s t ∨ ∃ r m w k, t = s.newSession r m w k := by
  cases hc with
  | reset r m w k hi hl ht => exact .inr ⟨r, m, w, k, ht⟩
  | held hi d ht =>
    subst ht
    exact .inl rfl
  | lost hi hl ht =>
    subst ht
    exact .inl rfl
  | close _ hrun | chFail _ hrun | function _ hrun => exact absurd hrun hs
  | send _ hact | ack _ _ hact | start _ hact | cancel _ hact | tick _ hact | fire _ hact | frame _ _ _ hact =>
    exact absurd hact.1 hs

/-- A step moves datagrams at most, or does besides what some instruction does. -/
theorem step_execCase (h : step s = .next t) : SameEngine s t ∨ ∃ i s0, SameEngine s s0 ∧ ExecCase i s0 t := by
  cases step_cases h with
  | quiet hq => exact .inl hq
  | instruction i s0 h0 hx hsub => exact .inr ⟨i, s0, h0, exec_cases hx⟩
  | arrival d drop s0 h0 ha =>
    -- a datagram too short for a frame arrives just as a frame does
    exact .inr ⟨.frameW false 0 0 [] false, s0, h0, arrive_execCase rfl ha⟩

/-- A step outside a running session leaves the engine as it is or begins a new session in it (R223, R242). -/
theorem step_outside_session (hs : ¬ s.Running) (hst : step s = .next t) :
    SameEngine s t ∨ ∃ s0 r m w k, SameEngine s s0 ∧ t = State.newSession s0 r m w k := by
  rcases step_execCase hst with hq | ⟨i, s0, h0, hc⟩
  · exact .inl hq
  · rcases hc.outside_session (fun hrun => hs (h0.running_iff.mp hrun)) with hq | ⟨r, m, w, k, ht⟩
    · exact .inl (h0.trans hq)
    · exact .inr ⟨s0, r, m, w, k, h0, ht⟩

/-- Settles O57: the session being over, the engine stays as it is or is newly reset (`step_outside_session`), and neither
writes the log. -/
theorem nothingIsSentAfterTheEnd : Obligations.NothingIsSentAfterTheEnd := by
  intro s t _ hover hst
  rcases step_outside_session (not_running_of_over hover) hst with hq | ⟨s0, r, m, w, k, h0, rfl⟩
  · rw [hq]
    exact ⟨rfl, .inl ⟨rfl, rfl, rfl, rfl⟩⟩
  · exact ⟨h0.log, .inr ⟨rfl, rfl, rfl, rfl⟩⟩

end Sys2Proof.Machine
end

section
/-! The receiver family: what RCV.FRAME answers to an acceptable frame, to any other valid frame and to the rest (O35 to O37),
the acks it hands to TX (O38), and what it leaves unchanged (O39). -/

namespace Sys2Proof.Machine

variable {s : State} {m : Mode} {d : Datagram} {q : Seq} {c : CorruptCause}

/-! ## RCV.FRAME as called -/

/-- A running RECEIVER takes any datagram the RX port can present (R200). -/
theorem exec_rcvFrame_receiving (hs : s.Receiving) (hlen : d.length ≤ 128) (drop : Bool) :
    exec (.rcvFrame d drop) s = .next (s.frameEffect d drop) := execRcvFrame_next.mpr ⟨hs, hlen, rfl⟩

/-- The accept test in both modes (R203, R205). -/
theorem accepts_iff (hlast : s.rLast.toNat < s.n) :
    s.accepts q = true ↔
      (s.mode = .win → q.toNat = (s.rLast.toNat + 1) % 128) ∧ (s.mode = .so → s.rFirst = true ∨ q ≠ s.rLast) := by
  cases hm : s.mode with
  | win => simp [accepts_win hm hlast]
  | so => simp [accepts_so hm]

/-- Settles O35: the frame passes the accept test (`accepts_iff`), and the accept branch writes the fields named
(`State.acceptFrame_eq`). -/
theorem rcvFrameAccepted : Obligations.RcvFrameAccepted := by
  intro s d q eot p hs hst hlen hd hlast hwin hso
  have hacc : s.accepts q = true := (accepts_iff hlast).mpr ⟨hwin, hso⟩
  rw [exec_rcvFrame_receiving hs hlen, State.frameEffect_valid hst hd, if_pos hacc, State.acceptFrame_eq _ _ _ _ hst]

/-- Settles O36: the frame fails the accept test of the mode, so only the ack of `R_LAST` is sent. -/
theorem rcvFrameReacknowledged : Obligations.RcvFrameReacknowledged := by
  intro s d q eot p hs hst hlen hd hlast hwin hso
  have hrej : ¬ s.accepts q = true := by
    intro hacc
    obtain ⟨hnext, hnew⟩ := (accepts_iff hlast).mp hacc
    cases hm : s.mode with
    | win => exact hwin hm (hnext hm)
    | so =>
      obtain ⟨hfirst, hsame⟩ := hso hm
      simpa [hfirst, hsame] using hnew hm
  rw [exec_rcvFrame_receiving hs hlen, State.frameEffect_valid hst hd, if_neg hrej, State.tx]

/-- Settles O37: in each of the three cases RCV.FRAME's body leaves the state as it is (`State.frameEffect_ignored`). -/
theorem rcvFrameIgnored : Obligations.RcvFrameIgnored := by
  intro s d drop hs hlen h
  rw [exec_rcvFrame_receiving hs hlen, State.frameEffect_ignored (or_left_comm.mp h)]

/-! ## The acks -/

theorem not_validFrame_of_corrupt (h : dec m d = .corrupt c) : ¬ ValidFrame d := by
  intro hv
  obtain ⟨q, e, p, hd⟩ := (dec_ok_iff m d).mpr hv
  rw [h] at hd
  cases hd

/-- Accepting a frame hands one datagram to TX, the frame's ack (R203, R205). -/
theorem State.acceptFrame_txs (s : State) (q : Seq) (e : Bool) (p : List Byte) :
    txs (s.acceptFrame q e p).log = txs s.log ++ [encAck s.mode q] := by
  cases e <;> simp [State.acceptFrame, txs_append, txs]

@[simp] theorem State.acceptFrame_rLast (s : State) (q : Seq) (e : Bool) (p : List Byte) :
    (s.acceptFrame q e p).rLast = q := by
  cases e <;> rfl

/-- Settles O38: what is ignored is dropped, late or no valid frame, and either other branch hands over one ack, of the
`R_LAST` it leaves. -/
theorem oneAckPerValidFrame : Obligations.OneAckPerValidFrame := by
  intro s t d drop h
  obtain ⟨-, -, rfl⟩ := execRcvFrame_next.mp h
  rcases s.frameEffect_cases d drop with ⟨hi, ht⟩ | ⟨q, e, p, hst, rfl, hd, ht⟩
  · have hno : ¬ (drop = false ∧ s.rState = .awaitingFrame ∧ ValidFrame d) := by
      rintro ⟨hdrop, hst, hv⟩
      rcases hi with hc | hc | ⟨c, hc⟩
      · simp [hst] at hc
      · simp [hdrop] at hc
      · exact not_validFrame_of_corrupt hc hv
    rw [if_neg hno, ht, List.append_nil]
  · have hv : ValidFrame d := (dec_ok_iff s.mode d).mp ⟨q, e, p, hd⟩
    rw [if_pos ⟨rfl, hst, hv⟩]
    rcases ht with ⟨-, ht⟩ | ⟨-, ht⟩
    · rw [ht, State.acceptFrame_txs, State.acceptFrame_rLast]
    · rw [ht, State.tx_log, State.tx_rLast, txs_append, txs, txs]

/-! ## What RCV.FRAME leaves unchanged -/

/-- RCV.FRAME's body only adds to what was handed to the ports and to what is in flight (R70 to R72). -/
theorem State.frameEffect_ports_prefix (s : State) (d : Datagram) (drop : Bool) :
    s.log <+: (s.frameEffect d drop).log ∧ s.chOut <+: (s.frameEffect d drop).chOut := by
  rcases s.frameEffect_cases d drop with ⟨-, ht⟩ | ⟨q, e, p, hst, -, -, ⟨-, ht⟩ | ⟨-, ht⟩⟩
  · rw [ht]
    exact ⟨List.prefix_rfl, List.prefix_rfl⟩
  · rw [ht, State.acceptFrame_eq _ _ _ _ hst]
    exact ⟨List.prefix_append _ _, List.prefix_append _ _⟩
  · rw [ht]
    exact ⟨List.prefix_append _ _, List.prefix_append _ _⟩

/-- Settles O39, by the frame of RCV.FRAME's body; after COMPLETE it has no effect (R208). -/
theorem receiverFrame : Obligations.ReceiverFrame := by
  intro s t d drop h
  obtain ⟨-, -, rfl⟩ := execRcvFrame_next.mp h
  obtain ⟨hlog, hch⟩ := s.frameEffect_ports_prefix d drop
  exact ⟨s.frameEffect_frame d drop, hlog, hch, fun hc => State.frameEffect_ignored (.inl hc)⟩

end Sys2Proof.Machine
end

section
/-! The session family: the two operations that end a session, CLOSE (O42) and CH.FAIL (O43). -/

namespace Sys2Proof.Machine

/-- Settles O42: in a running session CLOSE tears the timer down (`State.teardownTimer_eq`) and sets CLOSED. -/
theorem closeResult : Obligations.CloseResult := by
  intro s hs
  refine execClose_next.mpr ⟨hs, ?_⟩
  rw [State.teardownTimer_eq]

/-- Settles O43: in a running session CH.FAIL is the entry of ChannelClosed, whose fields `State.enterFatal_eq` names. -/
theorem chFailResult : Obligations.ChFailResult := fun s hs =>
  execChFail_next.mpr ⟨hs, s.enterFatal_eq.symm⟩

end Sys2Proof.Machine
end

section
/-! The exceptions and hazards family: no step faults (O56), frames outside a session (O48), the widest window (O27). -/

namespace Sys2Proof.Machine

variable {s : State} {k : Out} {d : Datagram}

/-! ## No step faults -/

/-- The outcome is a next state or a refusal. -/
def NeverFaults (o : Out) : Prop := ∀ f, o ≠ .fault f

theorem NeverFaults.next (t : State) : NeverFaults (.next t) := fun _ => nofun

theorem NeverFaults.refused (r : Refusal) : NeverFaults (.refused r) := fun _ => nofun

theorem NeverFaults.whenLive (h : NeverFaults k) : NeverFaults (whenLive s k) := fun f =>
  have ⟨hlive, _⟩ := gate_not_fault (h f) s .sender true []
  hlive

theorem NeverFaults.whenRole {r : Role} (h : NeverFaults k) : NeverFaults (whenRole s r k) := fun f =>
  have ⟨_, hrole, _⟩ := gate_not_fault (h f) s r true []
  hrole

theorem NeverFaults.whenEnabled {c : Bool} (h : NeverFaults k) : NeverFaults (whenEnabled c k) := fun f =>
  have ⟨_, _, henabled, _⟩ := gate_not_fault (h f) .reset .sender c []
  henabled

theorem NeverFaults.whenDomain {c : Bool} (h : NeverFaults k) : NeverFaults (whenDomain c k) := fun f =>
  have ⟨_, _, _, hdomain, _⟩ := gate_not_fault (h f) .reset .sender c []
  hdomain

theorem NeverFaults.whenPresentable (h : NeverFaults k) : NeverFaults (whenPresentable d k) := fun f =>
  have ⟨_, _, _, _, hpresentable⟩ := gate_not_fault (h f) .reset .sender true d
  hpresentable

theorem arrive_neverFaults (d : Datagram) (drop : Bool) (s : State) : NeverFaults (arrive d drop s) := by
  refine .whenPresentable ?_
  split
  · split
    · exact .next _
    · split
      · exact .next _
      · split <;> exact .next _
  · exact .next _

/-- No instruction faults: each meaning is a chain of gates before a next state, RESET a test of its parameters, and a frame
an arrival. -/
theorem exec_neverFaults (i : Instr) (s : State) : NeverFaults (exec i s) := by
  cases i with
  | reset r m w trto =>
    simp only [exec, execReset]
    split
    · exact .next _
    · exact .refused _
  | close | chFail => exact .whenLive (.next _)
  | cksum | encW | encS | seqInc | seqOff => exact .whenLive (.whenDomain (.next _))
  | decW | decS => exact .whenLive (.whenPresentable (.next _))
  | inWin => exact .whenLive (.whenRole (.whenDomain (.next _)))
  | sndSend | tmrFire => exact .whenLive (.whenRole (.whenEnabled (.next _)))
  | sndAck => exact .whenLive (.whenRole (.whenPresentable (.whenEnabled (.next _))))
  | tmrStart | tmrCancel | tmrTick => exact .whenLive (.whenRole (.next _))
  | rcvFrame => exact .whenLive (.whenRole (.whenPresentable (.next _)))
  | frameW | frameS => exact arrive_neverFaults _ _ _

theorem presentOp_neverFaults (x : Txn) (s : State) : NeverFaults (presentOp x s) := by
  unfold presentOp
  split
  · split
    · exact .refused _
    · exact exec_neverFaults _ _
  · exact .refused _

theorem presentRx_neverFaults (d : Datagram) (drop : Bool) (s : State) : NeverFaults (presentRx d drop s) := by
  unfold presentRx
  split
  · exact exec_neverFaults _ _
  · exact arrive_neverFaults _ _ _
  · exact .refused _

theorem onDatagram_neverFaults {dir : Direction} {i : Nat} {act : Datagram → List Datagram → Out}
    (h : ∀ d ds, NeverFaults (act d ds)) : NeverFaults (onDatagram s dir i act) := by
  unfold onDatagram
  split
  · exact h _ _
  · exact .refused _

theorem channelAct_neverFaults (a : ChanAct) (s : State) : NeverFaults (channelAct a s) := by
  cases a with
  | appear => exact .next _
  | leave | corrupt | shorten | duplicate => exact onDatagram_neverFaults fun _ _ => .next _
  | present => exact onDatagram_neverFaults fun _ _ => presentRx_neverFaults _ _ _

theorem presentTxn_neverFaults (x : Txn) (s : State) : NeverFaults (presentTxn x s) := by
  cases x with
  | event | call => exact presentOp_neverFaults _ _
  | rx => exact presentRx_neverFaults _ _ _
  | channel => exact channelAct_neverFaults _ _

/-- Settles O56: the engine waits or takes a transaction, and presenting one never faults, at whichever port. -/
theorem noStepFaults : Obligations.NoStepFaults := by
  intro s
  change NeverFaults (step s)
  unfold step
  split
  · exact .next _
  · exact presentTxn_neverFaults _ _

/-! ## Frames outside a session -/

/-- Settles O48: a frame is the arrival of its bytes, and outside a session that is `arrive_dead`. -/
theorem framesOutsideASession : Obligations.FramesOutsideASession := by
  intro s hs
  refine ⟨fun eot q cks p drop hp => ⟨frameWHeader eot q, frameWHeader_toNat eot q, ?_⟩,
    fun r q cks p drop hp => ⟨frameSHeader r q, frameSHeader_toNat r q, ?_⟩⟩
  · exact arrive_dead hs (frameWHeader eot q :: cks :: p) drop (by simp only [List.length_cons]; omega)
  · exact arrive_dead hs (frameSHeader r q :: cks :: p) drop (by simp only [List.length_cons]; omega)

/-! ## The widest window -/

/-- In mode WIN the numbers are all those of the 7-bit register, so SEQINC is its wrapping increment (R140). -/
theorem seqInc_win (x : Seq) : seqInc (modulus .win) x = x + 1 := by
  apply BitVec.eq_of_toNat_eq
  rw [seqInc_toNat (m := .win) x.isLt, BitVec.toNat_add]
  rfl

/-- Settles O27: `S_BASE - 1` is the number before the base (`seqInc_win`), which in a window as wide as the number space
acknowledges all that OUT can hold (`State.ackEffect_before_base`). -/
theorem window128LosesTheWindow : Obligations.Window128LosesTheWindow := by
  intro s d a eot p hs hm hw hcnt hwait hlen hd ha
  have hn : s.n = 128 := congrArg modulus hm
  have hweff : s.weff = 128 := by simp only [State.weff, hm, hw]
  have hbase : s.sBase = seqInc s.n a := by
    rw [State.n, hm, seqInc_win, ha, BitVec.sub_add_cancel]
  exact ⟨_, exec_sndAck_waiting hs hwait hlen,
    State.ackEffect_before_base hd hbase (hweff.trans hn.symm) (hcnt.trans hweff.ge)⟩

end Sys2Proof.Machine
end
